-- ==== Sys2Proof/Word.lean ====
section
/-! DEFINITION. The fixed widths of the block (00_scope.md R4, R6). -/

namespace Sys2Proof

/-- A bus word or a 32-bit register (00_scope.md R6). -/
abbrev Word := BitVec 32

/-- A byte offset inside the 4 KiB window, PADDR[11:0] (20_memory.md R60, D2). -/
abbrev Offset := BitVec 12

/-- An 8-bit element of MA or VIN (10_state.md R36, R37). -/
abbrev Byte := BitVec 8

/-- A 64-bit DES block or key (00_scope.md R4). -/
abbrev Block := BitVec 64

/-- A 48-bit round key (00_scope.md R4). -/
abbrev Subkey := BitVec 48

/-- A 32-bit half block (00_scope.md R4). -/
abbrev Half := BitVec 32

end Sys2Proof
end

