-- ==== Sys2Proof/Syntax.lean ====
section
/-! DEFINITION. The commands: one constructor per row of spec/opcode_table.json (30_encoding.md R97, R101). -/

namespace Sys2Proof

/-- A command. `idx` is the field IDX; `n` and `m` are the fields N (rows) and M (columns), as they
stand in the word (30_encoding.md R90, R91). Every other operand is implicit. -/
inductive Instr where
  /-- nop (46_control.md R250) -/
  | nop
  /-- ks (41_des_key_schedule.md R151) -/
  | ks
  /-- ffunc (42_des_round.md R161) -/
  | ffunc
  /-- round k (42_des_round.md R162) -/
  | round (idx : BitVec 4)
  /-- block.enc (43_des_block.md R182, DIR = 0) -/
  | blockEnc
  /-- block.dec (43_des_block.md R182, DIR = 1) -/
  | blockDec
  /-- iperm (43_des_block.md R184) -/
  | iperm
  /-- fperm (43_des_block.md R185) -/
  | fperm
  /-- det NxM (44_matrix_inverse.md R205) -/
  | det (n m : BitVec 3)
  /-- adj NxM (44_matrix_inverse.md R206, T = 0) -/
  | adj (n m : BitVec 3)
  /-- adj.t NxM (44_matrix_inverse.md R206, T = 1) -/
  | adjT (n m : BitVec 3)
  /-- inv NxM (44_matrix_inverse.md R207, T = 0) -/
  | inv (n m : BitVec 3)
  /-- inv.t NxM (44_matrix_inverse.md R207, T = 1) -/
  | invT (n m : BitVec 3)
  /-- mvm NxM (45_hill.md R232, S = 0) -/
  | mvm (n m : BitVec 3)
  /-- mvm.s NxM (45_hill.md R232, S = 1) -/
  | mvmS (n m : BitVec 3)
  /-- vmm NxM (45_hill.md R233, S = 0) -/
  | vmm (n m : BitVec 3)
  /-- vmm.s NxM (45_hill.md R233, S = 1) -/
  | vmmS (n m : BitVec 3)
  deriving DecidableEq, Repr

end Sys2Proof
end

