-- ==== Sys2Proof/WellFormed.lean ====
section
/-! DEFINITION. Which command terms some legal word stands for (30_encoding.md R98, R99). -/

namespace Sys2Proof

/-- N and M lie in 1..4 (30_encoding.md R98, `dimOK`). -/
def dimOk (n m : BitVec 3) : Bool :=
  decide (1 ≤ n.toNat) && decide (n.toNat ≤ 4) && decide (1 ≤ m.toNat) && decide (m.toNat ≤ 4)

/-- The N and M fields of a matrix command; none for the others. -/
def Instr.dims : Instr → Option (BitVec 3 × BitVec 3)
  | .nop | .ks | .ffunc | .round _ | .blockEnc | .blockDec | .iperm | .fperm => none
  | .det n m | .adj n m | .adjT n m | .inv n m | .invT n m => some (n, m)
  | .mvm n m | .mvmS n m | .vmm n m | .vmmS n m => some (n, m)

/-- A command term is well formed when its dimensions are (the 4-bit index has no illegal value,
42_des_round.md R162). -/
def Instr.wellFormed (i : Instr) : Bool :=
  match i.dims with
  | none => true
  | some (n, m) => dimOk n m

end Sys2Proof
end

