-- ==== Sys2Proof/Decode.lean ====
section
/-! DEFINITION. The command word: fields, the total decoder with its refusals by name, and the encoder
(30_encoding.md R90, R91, R97-R101, R105). -/

namespace Sys2Proof

/-- Why a word names no command (30_encoding.md R99). Executing such a word completes with ILLEGAL_CMD
(60_exceptions.md R263); the reason itself is recorded nowhere. -/
inductive Illegal where
  /-- Bit 11, bit 15 or one of bits 31:19 is set. -/
  | reservedBits
  /-- OPC is 0x7 or 0xD-0xF. -/
  | reservedOpcode
  /-- A field that the opcode does not use is nonzero. -/
  | unusedField
  /-- N or M of a matrix opcode is outside 1..4. -/
  | badDimension
  deriving DecidableEq, Repr

/-- The fields of a command word (30_encoding.md R90, R91). -/
structure CmdFields where
  opc : BitVec 4
  idx : BitVec 4
  dir : Bool
  t : Bool
  s : Bool
  n : BitVec 3
  m : BitVec 3
  deriving DecidableEq, Repr

/-- The bits hi down to lo of a word, at the width named (00_scope.md R6). -/
def bitSlice (w : Word) (lo len : Nat) : BitVec len := w.extractLsb' lo len

/-- Operand assembly (30_encoding.md R91). -/
def cmdFields (w : Word) : CmdFields :=
  { opc := bitSlice w 0 4, idx := bitSlice w 4 4, dir := w.getLsbD 8, t := w.getLsbD 9, s := w.getLsbD 10,
    n := bitSlice w 12 3, m := bitSlice w 16 3 }

/-- Bits 11, 15 and 31:19 are all 0 (30_encoding.md R98). -/
def reservedClear (w : Word) : Bool :=
  !w.getLsbD 11 && !w.getLsbD 15 && (bitSlice w 19 13 == 0#13)

/-- Refuse by name, or answer the command. -/
def decodeIf (ok : Bool) (why : Illegal) (i : Instr) : Except Illegal Instr :=
  if ok then .ok i else .error why

/-- A matrix opcode: the unused fields first, then the dimensions. -/
def decodeMatrix (f : CmdFields) (unusedClear : Bool) (mk : BitVec 3 → BitVec 3 → Instr) : Except Illegal Instr :=
  if unusedClear then decodeIf (dimOk f.n f.m) .badDimension (mk f.n f.m) else .error .unusedField

/-- `decode` of 30_encoding.md R98 after the test of the reserved bits, row by row. -/
def decodeFields (f : CmdFields) : Except Illegal Instr :=
  let idx0 := f.idx == 0#4
  let dir0 := !f.dir
  let t0 := !f.t
  let s0 := !f.s
  let nm0 := f.n == 0#3 && f.m == 0#3
  match f.opc.toNat with
  | 0x0 => decodeIf (idx0 && dir0 && t0 && s0 && nm0) .unusedField .nop
  | 0x1 => decodeIf (idx0 && dir0 && t0 && s0 && nm0) .unusedField .ks
  | 0x2 => decodeIf (idx0 && dir0 && t0 && s0 && nm0) .unusedField .ffunc
  | 0x3 => decodeIf (dir0 && t0 && s0 && nm0) .unusedField (.round f.idx)
  | 0x4 => decodeIf (idx0 && t0 && s0 && nm0) .unusedField (if f.dir then .blockDec else .blockEnc)
  | 0x5 => decodeIf (idx0 && dir0 && t0 && s0 && nm0) .unusedField .iperm
  | 0x6 => decodeIf (idx0 && dir0 && t0 && s0 && nm0) .unusedField .fperm
  | 0x8 => decodeMatrix f (idx0 && dir0 && t0 && s0) .det
  | 0x9 => decodeMatrix f (idx0 && dir0 && s0) (if f.t then .adjT else .adj)
  | 0xA => decodeMatrix f (idx0 && dir0 && s0) (if f.t then .invT else .inv)
  | 0xB => decodeMatrix f (idx0 && dir0 && t0) (if f.s then .mvmS else .mvm)
  | 0xC => decodeMatrix f (idx0 && dir0 && t0) (if f.s then .vmmS else .vmm)
  | _ => .error .reservedOpcode

/-- The decoder, total on every 32-bit word (30_encoding.md R98). -/
def decode (w : Word) : Except Illegal Instr :=
  if reservedClear w then decodeFields (cmdFields w) else .error .reservedBits

/-- The word of an opcode with N and M filled in (30_encoding.md R101). -/
def encodeMatrix (base : Word) (n m : BitVec 3) : Word :=
  base ||| (n.setWidth 32 <<< 12) ||| (m.setWidth 32 <<< 16)

/-- The word of each command (30_encoding.md R101). -/
def encode : Instr → Word
  | .nop => 0x00000000#32
  | .ks => 0x00000001#32
  | .ffunc => 0x00000002#32
  | .round idx => 0x00000003#32 ||| (idx.setWidth 32 <<< 4)
  | .blockEnc => 0x00000004#32
  | .blockDec => 0x00000104#32
  | .iperm => 0x00000005#32
  | .fperm => 0x00000006#32
  | .det n m => encodeMatrix 0x00000008#32 n m
  | .adj n m => encodeMatrix 0x00000009#32 n m
  | .adjT n m => encodeMatrix 0x00000209#32 n m
  | .inv n m => encodeMatrix 0x0000000A#32 n m
  | .invT n m => encodeMatrix 0x0000020A#32 n m
  | .mvm n m => encodeMatrix 0x0000000B#32 n m
  | .mvmS n m => encodeMatrix 0x0000040B#32 n m
  | .vmm n m => encodeMatrix 0x0000000C#32 n m
  | .vmmS n m => encodeMatrix 0x0000040C#32 n m

/-- The word of a table row's bits: a command is one 32-bit word (30_encoding.md R105), and every bit
above `nbits` is 0. -/
def tableWord (nbits w : Nat) : Word := BitVec.ofNat 32 (w % 2 ^ nbits)

/-- The command that the decoder reads from the bits of a table row; none where it refuses them. -/
def decodeTableWord (nbits w : Nat) : Option Instr :=
  match decode (tableWord nbits w) with
  | .ok i => some i
  | .error _ => none

end Sys2Proof
end

