-- ==== Sys2Proof/Config.lean ====
section
/-! DEFINITION. What is fixed for one block, and the free values (00_scope.md R4; 93_implementation_defined.md). -/

namespace Sys2Proof

/-- The two model switches of 00_scope.md R4. State carries them (log 5); no step changes them. -/
structure Config.Switches where
  /-- STRICT_DECODE: an access to a reserved offset faults (20_memory.md R64, U8). -/
  strictDecode : Bool
  /-- FAULT_ON_UNWRITTEN: a command that reads a register not written since reset faults
  (70_reset_and_hazards.md R324, U9). -/
  faultOnUnwritten : Bool
  deriving DecidableEq, Repr

/-- The default switches of 00_scope.md R4: both false. -/
def Config.defaultSwitches : Config.Switches := { strictDecode := false, faultOnUnwritten := false }

/-- The number of the 4 KiB page that the platform gives the block: OPEN (00_scope.md R4, D3, U10).
No body: nothing depends on its value (log 6). -/
opaque Config.basePage : Nat

/-- `CTCB_BASE`, 4 KiB-aligned by construction (00_scope.md R4). -/
def Config.ctcbBase : Nat := 4096 * Config.basePage

/-- The free value of the `k`-th read of a register at an offset from 0x040 while BUSY = 1, a draw
(70_reset_and_hazards.md R322, U4). No body: a statement about it holds for every value (log 3). -/
opaque Config.draw : Nat → Word

end Sys2Proof
end

