-- ==== Sys2Proof/Machine/State.lean ====
section
/-! DEFINITION. The state of the block, its stop reasons and its reset state (10_state.md R20-R45;
70_reset_and_hazards.md R300-R301). The block has no data memory and no program counter
(20_memory.md, opening; 10_state.md R20), so State holds registers, pins and pending events only. -/

namespace Sys2Proof.Machine

/-- The registers by name (10_state.md R21). -/
inductive Reg where
  | id | ctrl | status | cmd
  | keyHi | keyLo | dinHi | dinLo | doutHi | doutLo | fl | fr | fIn | fKhi | fKlo | fOut
  | skHi (r : Fin 16)
  | skLo (r : Fin 16)
  | ma (i j : Fin 4)
  | vin (j : Fin 4)
  | vout (j : Fin 4)
  | detLo | detHi | dinv
  | mr (i j : Fin 4)
  deriving DecidableEq, Repr

/-- STATUS, field by field (10_state.md R24). Its reserved bits have no storage. -/
structure Status where
  busy : Bool
  done : Bool
  err : Bool
  errcode : BitVec 4
  overrun : Bool
  deriving DecidableEq, Repr

/-- One bus transfer as the port sees it: PADDR[11:0], PWRITE, PWDATA, PSTRB (20_memory.md R60, D2). -/
structure Transfer where
  paddr : Offset
  pwrite : Bool
  pwdata : Word
  pstrb : BitVec 4
  deriving DecidableEq, Repr

/-- The events that change the block's state (60_exceptions.md R271), as entries of a schedule. -/
inductive Event where
  /-- A host access arrives (20_memory.md R70, R71). -/
  | bus (t : Transfer)
  /-- The engine gets its turn: the completion step if BUSY = 1, else nothing (60_exceptions.md R262). -/
  | engine
  /-- RST_N takes a level; `false` is low, asserted (70_reset_and_hazards.md R300). -/
  | rstN (level : Bool)
  deriving DecidableEq, Repr

/-- Why the machine stops with a fault. Every one of them errs on the safe side: the model stops. -/
inductive Fault where
  /-- Raised by a bus transfer that the port refuses (misaligned, narrow, partial PSTRB: 20_memory.md R61),
  or that names a reserved offset under STRICT_DECODE (R64). Safe: the hardware answers PSLVERR and goes on. -/
  | busFault (off : Offset) (write : Bool) (pstrb : BitVec 4)
  /-- Raised by `step` in a state whose STATUS breaks 10_state.md R28 or holds a reserved ERRCODE
  (60_exceptions.md R266). Safe: no run reaches one. -/
  | impossibleCode
  /-- Raised by a command under FAULT_ON_UNWRITTEN that reads a register not written since reset
  (70_reset_and_hazards.md R324). Safe: the hardware reads the reset value. -/
  | unwrittenOperand
  /-- The inverse search of 44_matrix_inverse.md R204 with no inverse to find (93 U3, stuck). Safe: the
  gcd check of R207 comes first, so nothing raises it. -/
  | inverseSearchStuck
  deriving DecidableEq, Repr

/-- Why the machine has no meaning for an instruction. -/
inductive Refusal where
  /-- Raised by an arm of `exec` whose command has no meaning yet; no arm is of this kind. Safe. -/
  | notModelled (mnemonic : String)
  deriving DecidableEq, Repr

/-- The state of the block (10_state.md R21) with its pins, its switches and the events still to come.
ID is a constant and has no field (10_state.md R22). -/
structure State where
  /-- CTRL.IE (10_state.md R23) -/
  ie : Bool
  /-- STATUS (10_state.md R24) -/
  status : Status
  /-- CMD, the word last accepted (10_state.md R26) -/
  cmd : Word
  /-- KEY_HI, KEY_LO (10_state.md R30) -/
  keyHi : Word
  keyLo : Word
  /-- DIN_HI, DIN_LO (10_state.md R31) -/
  dinHi : Word
  dinLo : Word
  /-- DOUT_HI, DOUT_LO (10_state.md R32) -/
  doutHi : Word
  doutLo : Word
  /-- FL, FR (10_state.md R33) -/
  fl : Half
  fr : Half
  /-- F_IN, F_KHI[15:0], F_KLO, F_OUT (10_state.md R34) -/
  fIn : Half
  fKhi : BitVec 16
  fKlo : Word
  fOut : Half
  /-- SK_HI[r][15:0] and SK_LO[r] (10_state.md R35) -/
  skHi : Vector (BitVec 16) 16
  skLo : Vector Word 16
  /-- MA[i][j], row by row (10_state.md R36) -/
  ma : Vector (Vector Byte 4) 4
  /-- VIN[j] (10_state.md R37) -/
  vin : Vector Byte 4
  /-- VOUT[j] (10_state.md R38) -/
  vout : Vector (BitVec 5) 4
  /-- DET_LO, DET_HI (10_state.md R39) -/
  detLo : Word
  detHi : Word
  /-- DINV (10_state.md R40) -/
  dinv : BitVec 5
  /-- MR[i][j], row by row (10_state.md R41) -/
  mr : Vector (Vector Word 4) 4
  /-- The registers that the host or a command has written since the last reset, without repeats
  (70_reset_and_hazards.md R324; log 9) -/
  written : List Reg
  /-- The level of the pin RST_N; `true` is high, released (70_reset_and_hazards.md R300) -/
  rstN : Bool
  /-- PRDATA of the last read (20_memory.md R60; log 4) -/
  prdata : Word
  /-- The model switches (00_scope.md R4; log 5) -/
  cfg : Config.Switches
  /-- How many draws have been taken (log 3) -/
  drawCount : Nat
  /-- The events still to come, oldest first (log 1) -/
  events : List Event
  deriving DecidableEq, Repr

/-- STATUS after reset (10_state.md R45). -/
def Status.reset : Status := { busy := false, done := false, err := false, errcode := 0#4, overrun := false }

/-- The machine right after reset (10_state.md R45; 70_reset_and_hazards.md R300, R301): every register 0,
no command in flight, no event pending. -/
def State.reset : State :=
  { ie := false, status := Status.reset, cmd := 0#32,
    keyHi := 0#32, keyLo := 0#32, dinHi := 0#32, dinLo := 0#32, doutHi := 0#32, doutLo := 0#32,
    fl := 0#32, fr := 0#32, fIn := 0#32, fKhi := 0#16, fKlo := 0#32, fOut := 0#32,
    skHi := Vector.replicate 16 0#16, skLo := Vector.replicate 16 0#32,
    ma := Vector.replicate 4 (Vector.replicate 4 0#8),
    vin := Vector.replicate 4 0#8, vout := Vector.replicate 4 0#5,
    detLo := 0#32, detHi := 0#32, dinv := 0#5,
    mr := Vector.replicate 4 (Vector.replicate 4 0#32),
    written := [], rstN := true, prdata := 0#32, cfg := Config.defaultSwitches, drawCount := 0, events := [] }

end Sys2Proof.Machine
end

