-- ==== Sys2Proof/Machine/Flags.lean ====
section
/-! DEFINITION. The flags: STATUS as a word, what sets and clears its fields, the error codes and IRQ
(10_state.md R24, R25, R27-R29; 60_exceptions.md R260, R262, R266, R270). -/

namespace Sys2Proof.Machine

/-- The errors of a command (60_exceptions.md R260). -/
inductive CmdError where
  | illegalCmd
  | invalidMatrixShape
  | notInvertible
  | noModularInverse
  deriving DecidableEq, Repr

/-- The code that ERRCODE holds for each error (60_exceptions.md R260). -/
def errorCode : CmdError → BitVec 4
  | .illegalCmd => 1#4
  | .invalidMatrixShape => 2#4
  | .notInvertible => 3#4
  | .noModularInverse => 4#4

/-- A bit as a word with that bit at position 0. -/
def bitWord (b : Bool) : Word := (BitVec.ofBool b).setWidth 32

/-- STATUS as it is read: BUSY 0, DONE 1, ERR 2, ERRCODE 7:4, OVERRUN 8, all else 0 (10_state.md R24). -/
def statusWord (st : Status) : Word :=
  bitWord st.busy ||| (bitWord st.done <<< 1) ||| (bitWord st.err <<< 2)
    ||| (st.errcode.setWidth 32 <<< 4) ||| (bitWord st.overrun <<< 8)

/-- A host write of `w` to STATUS: write 1 to clear (10_state.md R25). -/
def statusWrite (w : Word) (st : Status) : Status :=
  { busy := st.busy
    done := if w.getLsbD 1 then false else st.done
    err := if w.getLsbD 2 then false else st.err
    errcode := if w.getLsbD 2 then 0#4 else st.errcode
    overrun := if w.getLsbD 8 then false else st.overrun }

/-- STATUS at acceptance: OVERRUN is kept (10_state.md R24, R27). -/
def statusAccept (st : Status) : Status :=
  { st with busy := true, done := false, err := false, errcode := 0#4 }

/-- STATUS at completion with a code, 0 for success (60_exceptions.md R262). -/
def statusComplete (code : BitVec 4) (st : Status) : Status :=
  { st with busy := false, done := true, err := code != 0#4, errcode := code }

/-- STATUS after a dropped write (70_reset_and_hazards.md R321). -/
def statusOverrun (st : Status) : Status := { st with overrun := true }

/-- The STATUS invariants of 10_state.md R28; no reserved code among them (60_exceptions.md R266). -/
def statusOk (st : Status) : Bool :=
  (st.err == (st.errcode != 0#4)) && (!st.busy || (!st.done && !st.err && st.errcode == 0#4))
    && decide (st.errcode.toNat ≤ 4)

/-- The level of the interrupt output (60_exceptions.md R270). -/
def irq (s : State) : Bool := s.ie && s.status.done

end Sys2Proof.Machine
end

