-- ==== Sys2Proof/Machine/RegisterMap.lean ====
section
/-! DEFINITION. Where each register lies in the window, and what a reserved offset is
(10_state.md R21; 20_memory.md R62, R63; 00_scope.md R4, R10). -/

namespace Sys2Proof.Machine

/-- The byte offset of a register, as a number (10_state.md R21, 20_memory.md R62). -/
def regOffsetNat : Reg → Nat
  | .id => 0x000 | .ctrl => 0x004 | .status => 0x008 | .cmd => 0x00C
  | .keyHi => 0x040 | .keyLo => 0x044 | .dinHi => 0x048 | .dinLo => 0x04C
  | .doutHi => 0x050 | .doutLo => 0x054 | .fl => 0x058 | .fr => 0x05C
  | .fIn => 0x060 | .fKhi => 0x064 | .fKlo => 0x068 | .fOut => 0x06C
  | .skHi r => 0x080 + 8 * r.val
  | .skLo r => 0x084 + 8 * r.val
  | .ma i j => 0x100 + 16 * i.val + 4 * j.val
  | .vin j => 0x140 + 4 * j.val
  | .vout j => 0x150 + 4 * j.val
  | .detLo => 0x160 | .detHi => 0x164 | .dinv => 0x168
  | .mr i j => 0x180 + 16 * i.val + 4 * j.val

/-- The byte offset of a register. -/
def regOffset (r : Reg) : Offset := BitVec.ofNat 12 (regOffsetNat r)

/-- The sixteen elements of a 4 x 4 matrix file, row by row. -/
def matrixRegs (elem : Fin 4 → Fin 4 → Reg) : List Reg :=
  (List.finRange 4).flatMap fun i => (List.finRange 4).map fun j => elem i j

/-- The registers in the order of the table of 10_state.md R21. -/
def allRegs : List Reg :=
  List.flatten
    [[Reg.id, Reg.ctrl, Reg.status, Reg.cmd],
     [Reg.keyHi, Reg.keyLo, Reg.dinHi, Reg.dinLo, Reg.doutHi, Reg.doutLo],
     [Reg.fl, Reg.fr, Reg.fIn, Reg.fKhi, Reg.fKlo, Reg.fOut],
     (List.finRange 16).flatMap fun r => [Reg.skHi r, Reg.skLo r],
     matrixRegs Reg.ma, (List.finRange 4).map Reg.vin, (List.finRange 4).map Reg.vout,
     [Reg.detLo, Reg.detHi, Reg.dinv],
     matrixRegs Reg.mr]

/-- The element number `k` of an array of `n + 1`; the callers keep `k` in range. -/
def index (n k : Nat) : Fin (n + 1) := Fin.ofNat (n + 1) k

/-- The register that a byte offset names; none for a reserved offset (20_memory.md R63). -/
def regAt (off : Offset) : Option Reg :=
  let o := off.toNat
  let w := o / 4
  if o % 4 ≠ 0 then none
  else if o < 0x010 then [Reg.id, .ctrl, .status, .cmd][w]?
  else if o < 0x040 then none
  else if o < 0x070 then
    [Reg.keyHi, .keyLo, .dinHi, .dinLo, .doutHi, .doutLo, .fl, .fr, .fIn, .fKhi, .fKlo, .fOut][w - 0x10]?
  else if o < 0x080 then none
  else if o < 0x100 then
    some (if w % 2 = 0 then .skHi (index 15 ((o - 0x080) / 8)) else .skLo (index 15 ((o - 0x080) / 8)))
  else if o < 0x140 then some (.ma (index 3 ((o - 0x100) / 16)) (index 3 (w % 4)))
  else if o < 0x150 then some (.vin (index 3 (w % 4)))
  else if o < 0x160 then some (.vout (index 3 (w % 4)))
  else if o < 0x16C then [Reg.detLo, .detHi, .dinv][w - 0x58]?
  else if o < 0x180 then none
  else if o < 0x1C0 then some (.mr (index 3 ((o - 0x180) / 16)) (index 3 (w % 4)))
  else none

/-- The registers that the host writes as plain storage (10_state.md R21, access RW, offsets from 0x040). -/
def hostWritable : Reg → Bool
  | .keyHi | .keyLo | .dinHi | .dinLo | .fl | .fr | .fIn | .fKhi | .fKlo => true
  | .skHi _ | .skLo _ | .ma _ _ | .vin _ => true
  | .id | .ctrl | .status | .cmd => false
  | .doutHi | .doutLo | .fOut | .vout _ | .detLo | .detHi | .dinv | .mr _ _ => false

/-- The four control registers, at offsets below 0x010 (20_memory.md R63). -/
def isControl : Reg → Bool
  | .id | .ctrl | .status | .cmd => true
  | .keyHi | .keyLo | .dinHi | .dinLo | .doutHi | .doutLo | .fl | .fr | .fIn | .fKhi | .fKlo | .fOut => false
  | .skHi _ | .skLo _ | .ma _ _ | .vin _ | .vout _ | .detLo | .detHi | .dinv | .mr _ _ => false

/-- The offset inside the window of a platform address, if the address is in the window
(00_scope.md R4; 20_memory.md R60, R63). -/
def windowOffset (addr : Nat) : Option Offset :=
  if Config.ctcbBase ≤ addr ∧ addr < Config.ctcbBase + 4096 then some (BitVec.ofNat 12 (addr - Config.ctcbBase))
  else none

/-- `MemRead(addr, 4)` as a transfer at the block's port (00_scope.md R10, 20_memory.md R60). DESIGN CHOICE,
unsafe (log 24): a read drives PWDATA and PSTRB as 0, to which the spec gives no value. -/
def hostRead (addr : Nat) : Option Transfer :=
  (windowOffset addr).map fun off => { paddr := off, pwrite := false, pwdata := 0#32, pstrb := 0#4 }

/-- `MemWrite(addr, 4, w)` as a transfer at the block's port. -/
def hostWrite (addr : Nat) (w : Word) : Option Transfer :=
  (windowOffset addr).map fun off => { paddr := off, pwrite := true, pwdata := w, pstrb := 0b1111#4 }

end Sys2Proof.Machine
end

