-- ==== Sys2Proof/Machine/Ops.lean ====
section
/-! DEFINITION. The named operations over the registers: the read value of each register, the storage of
a field, the result writes of the commands, reset, acceptance and completion. Completion with an error is
what the block has in place of taking an exception (60_exceptions.md R262, R268); the block has no return
from one (R269). -/

namespace Sys2Proof.Machine

/-- What a step or a command answers. -/
abbrev StepOutcome := Host.Outcome State Fault Refusal

/-- ID, a constant (10_state.md R22, R42). -/
def idValue : Word := 0x43544342#32

/-- The read value of a register while it is readable (10_state.md R22-R41): narrow unsigned fields are
zero-extended, MA and VIN elements sign-extended. -/
def readReg (r : Reg) (s : State) : Word :=
  match r with
  | .id => idValue
  | .ctrl => bitWord s.ie
  | .status => statusWord s.status
  | .cmd => s.cmd
  | .keyHi => s.keyHi
  | .keyLo => s.keyLo
  | .dinHi => s.dinHi
  | .dinLo => s.dinLo
  | .doutHi => s.doutHi
  | .doutLo => s.doutLo
  | .fl => s.fl
  | .fr => s.fr
  | .fIn => s.fIn
  | .fKhi => s.fKhi.setWidth 32
  | .fKlo => s.fKlo
  | .fOut => s.fOut
  | .skHi r => (s.skHi[r.val]'r.isLt).setWidth 32
  | .skLo r => s.skLo[r.val]'r.isLt
  | .ma i j => ((s.ma[i.val]'i.isLt)[j.val]'j.isLt).signExtend 32
  | .vin j => (s.vin[j.val]'j.isLt).signExtend 32
  | .vout j => (s.vout[j.val]'j.isLt).setWidth 32
  | .detLo => s.detLo
  | .detHi => s.detHi
  | .dinv => s.dinv.setWidth 32
  | .mr i j => (s.mr[i.val]'i.isLt)[j.val]'j.isLt

/-- Store the field of a host-writable register (10_state.md R30-R37). The other registers are unchanged by
it; what a host write does to them is `regWrite`'s. -/
def storeField (r : Reg) (w : Word) (s : State) : State :=
  match r with
  | .keyHi => { s with keyHi := w }
  | .keyLo => { s with keyLo := w }
  | .dinHi => { s with dinHi := w }
  | .dinLo => { s with dinLo := w }
  | .fl => { s with fl := w }
  | .fr => { s with fr := w }
  | .fIn => { s with fIn := w }
  | .fKhi => { s with fKhi := w.setWidth 16 }
  | .fKlo => { s with fKlo := w }
  | .skHi r => { s with skHi := s.skHi.set r.val (w.setWidth 16) r.isLt }
  | .skLo r => { s with skLo := s.skLo.set r.val w r.isLt }
  | .ma i j => { s with ma := s.ma.set i.val ((s.ma[i.val]'i.isLt).set j.val (w.setWidth 8) j.isLt) i.isLt }
  | .vin j => { s with vin := s.vin.set j.val (w.setWidth 8) j.isLt }
  | .id | .ctrl | .status | .cmd | .doutHi | .doutLo | .fOut | .vout _ | .detLo | .detHi | .dinv | .mr _ _ => s

/-- Record that registers have been written since reset (70_reset_and_hazards.md R324). -/
def markWritten (rs : List Reg) (s : State) : State :=
  { s with written := rs.foldr (fun r l => l.insert r) s.written }

/-- Every register at its reset value; the pin, the port's last data, the switches, the draws taken and the
events to come are not registers (70_reset_and_hazards.md R300). -/
def blockReset (s : State) : State :=
  { State.reset with rstN := s.rstN, prdata := s.prdata, cfg := s.cfg, drawCount := s.drawCount, events := s.events }

/-- Acceptance of a command word (10_state.md R27). -/
def accept (w : Word) (s : State) : State :=
  { s with cmd := w, status := statusAccept s.status }

/-- The engine's fetch: the decoding of the latched word (60_exceptions.md R262, 20_memory.md R75). -/
def fetch (s : State) : Except Illegal Instr := decode s.cmd

/-- The STATUS update of the completion step (60_exceptions.md R262). -/
def completeWith (code : BitVec 4) (s : State) : State :=
  { s with status := statusComplete code s.status }

/-- Completion with success; `s` already holds the command's results (60_exceptions.md R262, Ok). -/
def succeed (s : State) : StepOutcome := .next (completeWith 0#4 s)

/-- `raise Error(e)`: completion with a code and no result written (00_scope.md R10, 60_exceptions.md R262, Err). -/
def raiseError (e : CmdError) (s : State) : StepOutcome := .next (completeWith (errorCode e) s)

/-- A drop of a host write while BUSY = 1 (70_reset_and_hazards.md R321). -/
def dropWrite (s : State) : State := { s with status := statusOverrun s.status }

/-- SK[0..15] <- sixteen round keys (41_des_key_schedule.md R151). -/
def writeSubkeys (ks : List Subkey) (s : State) : State :=
  markWritten ((List.finRange 16).flatMap fun r => [.skHi r, .skLo r])
    { s with
      skHi := Vector.ofFn fun r : Fin 16 => (ks.getD r.val 0#48).extractLsb' 32 16
      skLo := Vector.ofFn fun r : Fin 16 => (ks.getD r.val 0#48).extractLsb' 0 32 }

/-- F_OUT <- v (42_des_round.md R161). -/
def writeFOut (v : Half) (s : State) : State := markWritten [.fOut] { s with fOut := v }

/-- (FL, FR) <- (l, r) (42_des_round.md R162). -/
def writeFeistel (l r : Half) (s : State) : State := markWritten [.fl, .fr] { s with fl := l, fr := r }

/-- DOUT <- v (43_des_block.md R182). -/
def writeDout (v : Block) (s : State) : State :=
  markWritten [.doutHi, .doutLo] { s with doutHi := v.extractLsb' 32 32, doutLo := v.extractLsb' 0 32 }

/-- DET <- trunc_64(d) (44_matrix_inverse.md R205). -/
def writeDet (d : Int) (s : State) : State :=
  markWritten [.detLo, .detHi]
    { s with detHi := (BitVec.ofInt 64 d).extractLsb' 32 32, detLo := (BitVec.ofInt 64 d).extractLsb' 0 32 }

/-- DINV <- di (44_matrix_inverse.md R207). -/
def writeDinv (di : Nat) (s : State) : State := markWritten [.dinv] { s with dinv := BitVec.ofNat 5 di }

/-- All sixteen MR elements: the n x n results, and 0 elsewhere (44_matrix_inverse.md R206). -/
def writeMr (n : Nat) (b : Nat → Nat → Int) (s : State) : State :=
  markWritten (matrixRegs .mr)
    { s with
      mr := Vector.ofFn fun i : Fin 4 => Vector.ofFn fun j : Fin 4 =>
        if i.val < n ∧ j.val < n then BitVec.ofInt 32 (b i.val j.val) else 0#32 }

/-- All four VOUT elements: the n results, and 0 elsewhere (45_hill.md R232). -/
def writeVout (n : Nat) (v : Nat → Int) (s : State) : State :=
  markWritten ((List.finRange 4).map .vout)
    { s with vout := Vector.ofFn fun j : Fin 4 => if j.val < n then BitVec.ofInt 5 (v j.val) else 0#5 }

end Sys2Proof.Machine
end

