-- ==== Sys2Proof/Machine/Bus.lean ====
section
/-! DEFINITION. The bus port and RST_N: which transfers are accepted, what a read answers and what a write
does (20_memory.md R60-R72; 10_state.md R22-R42; 70_reset_and_hazards.md R300, R302, R321, R322). -/

namespace Sys2Proof.Machine

/-- The port accepts a transfer: aligned, and for a write all four byte lanes (20_memory.md R61, R66). -/
def accepted (t : Transfer) : Bool :=
  (t.paddr.extractLsb' 0 2 == 0#2) && (!t.pwrite || t.pstrb == 0b1111#4)

/-- PSLVERR for a transfer (20_memory.md R61). DESIGN CHOICE, unsafe (log 25): while RST_N is low, where
70_reset_and_hazards.md R300 says only that an access is ignored, the answer is R61's all the same. -/
def pslverr (t : Transfer) : Bool := !accepted t

/-- The fault of a transfer (20_memory.md R61; log 10). -/
def busFault (t : Transfer) : StepOutcome := .fault (.busFault t.paddr t.pwrite t.pstrb)

/-- A host write to CTRL: bit 1 resets the block whatever bit 0 holds, else bit 0 is IE
(10_state.md R23, 70_reset_and_hazards.md R302). -/
def writeCtrl (w : Word) (s : State) : State :=
  if w.getLsbD 1 then blockReset s else { s with ie := w.getLsbD 0 }

/-- A host write to CMD (10_state.md R26). -/
def writeCmd (w : Word) (s : State) : State := if s.status.busy then dropWrite s else accept w s

/-- A host write to a register at an offset from 0x040 (20_memory.md R71): dropped while BUSY = 1, stored
if the register is host-writable, else ignored (10_state.md R42). -/
def writeOperand (r : Reg) (w : Word) (s : State) : State :=
  if s.status.busy then dropWrite s
  else if hostWritable r then markWritten [r] (storeField r w s)
  else s

/-- `MemWrite` to a register (20_memory.md R71). -/
def regWrite (r : Reg) (w : Word) (s : State) : State :=
  match r with
  | .id => s
  | .ctrl => writeCtrl w s
  | .status => { s with status := statusWrite w s.status }
  | .cmd => writeCmd w s
  | r => writeOperand r w s

/-- A read of a register at an offset from 0x040 while BUSY = 1 is a draw (70_reset_and_hazards.md R322). -/
def isDraw (r : Reg) (s : State) : Bool := s.status.busy && !isControl r

/-- The word that `MemRead` of a register answers (20_memory.md R70). -/
def readValue (r : Reg) (s : State) : Word := if isDraw r s then Config.draw s.drawCount else readReg r s

/-- `MemRead` of a register: PRDATA takes the answer, and a draw is used up; no register changes
(20_memory.md R68, R70). -/
def regRead (r : Reg) (s : State) : State :=
  { s with prdata := readValue r s, drawCount := if isDraw r s then s.drawCount + 1 else s.drawCount }

/-- An access to a reserved offset: read-as-zero, write-ignored, or BusFault under STRICT_DECODE
(20_memory.md R64; log 20). It is reached while RST_N is high only (log 11). -/
def reservedAccess (t : Transfer) (s : State) : StepOutcome :=
  if s.cfg.strictDecode then busFault t
  else .next (if t.pwrite then s else { s with prdata := 0#32 })

/-- An accepted access (20_memory.md R70, R71). -/
def acceptedAccess (t : Transfer) (s : State) : StepOutcome :=
  match regAt t.paddr with
  | none => reservedAccess t s
  | some r => .next (if t.pwrite then regWrite r t.pwdata s else regRead r s)

/-- One bus transfer while RST_N is high (20_memory.md R61). -/
def busTransfer (t : Transfer) (s : State) : StepOutcome :=
  if accepted t then acceptedAccess t s else busFault t

/-- PRDATA in the response to a transfer while RST_N is high: 0 with PSLVERR (20_memory.md R61), else the
answer of the read (R70). -/
def responseData (t : Transfer) (s : State) : Word :=
  if accepted t then
    match regAt t.paddr with
    | none => 0#32
    | some r => readValue r s
  else 0#32

/-- RST_N takes a level: the block resets when it goes low, while it is low and at its release
(70_reset_and_hazards.md R300). A pin that stays high does nothing (log 11). -/
def setRstN (level : Bool) (s : State) : State :=
  if level && s.rstN then s else { blockReset s with rstN := level }

/-- An event while RST_N is low: the block stays in reset, a bus access is ignored, and a read returns 0
(70_reset_and_hazards.md R300). DESIGN CHOICE, unsafe (log 11): R300 goes before R61 and R64, so a misaligned
access, one with partial PSTRB, and one to a reserved offset under STRICT_DECODE are ignored and no fault. -/
def heldInReset (e : Event) (s : State) : State :=
  match e with
  | .bus t => if t.pwrite then blockReset s else { blockReset s with prdata := 0#32 }
  | .engine => blockReset s
  | .rstN level => setRstN level s

end Sys2Proof.Machine
end

