-- ==== Sys2Proof/Machine/Operands.lean ====
section
/-! DEFINITION. The implicit operands of the commands (10_state.md R30-R41, R44; 45_hill.md R230), the check
of FAULT_ON_UNWRITTEN on them, and the shape check (44_matrix_inverse.md R203). -/

namespace Sys2Proof.Machine

/-- KEY = KEY_HI ++ KEY_LO (10_state.md R30). -/
def keyValue (s : State) : Block := s.keyHi ++ s.keyLo

/-- DIN = DIN_HI ++ DIN_LO (10_state.md R31). -/
def dinValue (s : State) : Block := s.dinHi ++ s.dinLo

/-- DOUT = DOUT_HI ++ DOUT_LO (10_state.md R32). -/
def doutValue (s : State) : Block := s.doutHi ++ s.doutLo

/-- FK = F_KHI[15:0] ++ F_KLO (10_state.md R34). -/
def fkValue (s : State) : Subkey := s.fKhi ++ s.fKlo

/-- SK[r] = SK_HI[r][15:0] ++ SK_LO[r] (10_state.md R35). -/
def subkey (r : Fin 16) (s : State) : Subkey := (s.skHi[r.val]'r.isLt) ++ (s.skLo[r.val]'r.isLt)

/-- SK[0], ..., SK[15], the forward order (43_des_block.md R182). -/
def subkeys (s : State) : List Subkey := (List.finRange 16).map fun r => subkey r s

/-- DET = signed_64(DET_HI ++ DET_LO) (10_state.md R39). -/
def detValue (s : State) : Int := (s.detHi ++ s.detLo).toInt

/-- signed_8(MA[i][j]) (10_state.md R36); no element lies outside 4 x 4. -/
def maEntry (s : State) (i j : Nat) : Int :=
  if h : i < 4 ∧ j < 4 then ((s.ma[i]'h.1)[j]'h.2).toInt else 0

/-- signed_32(MR[i][j]) (10_state.md R41). -/
def mrEntry (s : State) (i j : Nat) : Int :=
  if h : i < 4 ∧ j < 4 then ((s.mr[i]'h.1)[j]'h.2).toInt else 0

/-- signed_8(VIN[j]) (10_state.md R37). -/
def vinEntry (s : State) (j : Nat) : Int := if h : j < 4 then (s.vin[j]'h).toInt else 0

/-- The registers of KEY, DIN, FK and F_IN that a command reads (10_state.md R44). -/
def keyRegs : List Reg := [.keyHi, .keyLo]
def dinRegs : List Reg := [.dinHi, .dinLo]
def ffuncRegs : List Reg := [.fIn, .fKhi, .fKlo]

/-- The registers of one subkey. -/
def subkeyRegs (r : Fin 16) : List Reg := [.skHi r, .skLo r]

/-- The registers of the subkey file. -/
def skRegs : List Reg := (List.finRange 16).flatMap subkeyRegs

/-- The registers of the top-left n x n block of MA (70_reset_and_hazards.md R307). -/
def maRegs (n : Nat) : List Reg :=
  (List.finRange 4).flatMap fun i => (List.finRange 4).filterMap fun j =>
    if i.val < n ∧ j.val < n then some (.ma i j) else none

/-- The registers of the top-left n x n block of MR. -/
def mrRegs (n : Nat) : List Reg :=
  (List.finRange 4).flatMap fun i => (List.finRange 4).filterMap fun j =>
    if i.val < n ∧ j.val < n then some (.mr i j) else none

/-- VIN[0..n-1]. -/
def vinRegs (n : Nat) : List Reg :=
  (List.finRange 4).filterMap fun j => if j.val < n then some (.vin j) else none

/-- The operands may be read: FAULT_ON_UNWRITTEN is off, or each has been written since the last reset
(70_reset_and_hazards.md R324). -/
def operandsReady (rs : List Reg) (s : State) : Bool :=
  !s.cfg.faultOnUnwritten || rs.all fun r => s.written.contains r

/-- Go on once the operands may be read; else the fault of FAULT_ON_UNWRITTEN. -/
def withOperands (rs : List Reg) (s : State) (go : StepOutcome) : StepOutcome :=
  if operandsReady rs s then go else .fault .unwrittenOperand

/-- The frame of every matrix command. A term whose N or M no legal word holds is illegal (30_encoding.md
R98, log 8); then N ≠ M is INVALID_MATRIX_SHAPE (44_matrix_inverse.md R203); then the operands are read and
the command runs on n = N. -/
def matrixCommand (n m : BitVec 3) (s : State) (operands : Nat → List Reg) (run : Nat → StepOutcome) : StepOutcome :=
  if dimOk n m then
    if n = m then withOperands (operands n.toNat) s (run n.toNat) else raiseError .invalidMatrixShape s
  else raiseError .illegalCmd s

end Sys2Proof.Machine
end

