-- ==== Sys2Proof/Machine/Control.lean ====
section
/-! DEFINITION. NOP (46_control.md R250). -/

namespace Sys2Proof.Machine

/-- NOP: no register is written; the completion update still runs (46_control.md R250). -/
def execNop (s : State) : StepOutcome := succeed s

end Sys2Proof.Machine
end

