-- ==== Sys2Proof/Machine/Des.lean ====
section
/-! DEFINITION. The DES functions: bit primitives (40_des_primitives.md R120-R125), key schedule
(41_des_key_schedule.md R150), round function (42_des_round.md R160) and block transform (43_des_block.md R181). -/

namespace Sys2Proof.Machine

/-- `pos_n(v, k)`, the k-th position counted from 1 at the most significant bit (00_scope.md R5). -/
def position {n : Nat} (v : BitVec n) (k : Nat) : Bool := v.getMsbD (k - 1)

/-- `permute(v, n, T)`: position i of the result is position T[i] of v (40_des_primitives.md R120). The
width `m` of the result is the length of the table. -/
def permute {n : Nat} (m : Nat) (v : BitVec n) (table : List Nat) : BitVec m :=
  BitVec.ofNat m (table.foldl (fun acc k => 2 * acc + (position v k).toNat) 0)

/-- `rotl_28(v, s)` (40_des_primitives.md R122). -/
def rotl28 (v : BitVec 28) (k : Nat) : BitVec 28 := (v <<< k) ||| (v >>> (28 - k))

/-- Positions 1..h of a 2h-bit value (40_des_primitives.md R123). -/
def firstHalf (h : Nat) (v : BitVec (2 * h)) : BitVec h := v.extractLsb' h h

/-- Positions h+1..2h of a 2h-bit value (40_des_primitives.md R123). -/
def secondHalf (h : Nat) (v : BitVec (2 * h)) : BitVec h := v.extractLsb' 0 h

/-- `group6(x, i)`, positions 6i-5..6i (40_des_primitives.md R124). -/
def group6 (x : Subkey) (i : Nat) : BitVec 6 := x.extractLsb' (48 - 6 * i) 6

/-- The S-box row of a group, 2 b1 + b6 (40_des_primitives.md R125). -/
def sboxRow (g : BitVec 6) : Nat := 2 * (position g 1).toNat + (position g 6).toNat

/-- The S-box column of a group, 8 b2 + 4 b3 + 2 b4 + b5 (40_des_primitives.md R125). -/
def sboxColumn (g : BitVec 6) : Nat :=
  8 * (position g 2).toNat + 4 * (position g 3).toNat + 2 * (position g 4).toNat + (position g 5).toNat

/-- The entry S_i[row][col]; the callers keep i in 1..8, row in 0..3 and col in 0..15. -/
def sboxEntry (i row col : Nat) : Nat := ((tableS.getD (i - 1) []).getD row []).getD col 0

/-- `sbox(i, g)` (40_des_primitives.md R125). -/
def sbox (i : Nat) (g : BitVec 6) : BitVec 4 := BitVec.ofNat 4 (sboxEntry i (sboxRow g) (sboxColumn g))

/-- The eight S-box outputs of a 48-bit value, S1's first (42_des_round.md R160). -/
def sboxLayer (x : Subkey) : Half :=
  [1, 2, 3, 4, 5, 6, 7, 8].foldl (fun (y : Half) i => (y <<< 4) ||| (sbox i (group6 x i)).setWidth 32) 0#32

/-- The round function `f(R, K)` (42_des_round.md R160). -/
def roundFunction (r : Half) (k : Subkey) : Half :=
  permute 32 (sboxLayer (permute 48 r tableE ^^^ k)) tableP

/-- One Feistel round on a pair (L, R) (42_des_round.md R162, 43_des_block.md R181). -/
def feistelRound (p : Half × Half) (k : Subkey) : Half × Half := (p.2, p.1 ^^^ roundFunction p.2 k)

/-- The rounds from a pair of key halves on: rotate, then PC-2 (41_des_key_schedule.md R150). -/
def scheduleFrom (c d : BitVec 28) : List Nat → List Subkey
  | [] => []
  | k :: ks => permute 48 (rotl28 c k ++ rotl28 d k) tablePC2 :: scheduleFrom (rotl28 c k) (rotl28 d k) ks

/-- `keysched(K)`, the sixteen round keys in forward order (41_des_key_schedule.md R150). -/
def keySchedule (key : Block) : List Subkey :=
  scheduleFrom (firstHalf 28 (permute 56 key tablePC1)) (secondHalf 28 (permute 56 key tablePC1)) tableShift

/-- The initial permutation of a block (43_des_block.md R184). -/
def initialPermutation (x : Block) : Block := permute 64 x tableIP

/-- The final permutation of a block (43_des_block.md R185). -/
def finalPermutation (x : Block) : Block := permute 64 x tableFP

/-- The halves (L0, R0) after IP (43_des_block.md R180). -/
def splitBlock (x : Block) : Half × Half := (firstHalf 32 x, secondHalf 32 x)

/-- The swap-back: R then L (43_des_block.md R181). -/
def joinSwapped (p : Half × Half) : Block := p.2 ++ p.1

/-- `des(X, k)` with the round keys in the order of use (43_des_block.md R181). -/
def desBlock (x : Block) (ks : List Subkey) : Block :=
  finalPermutation (joinSwapped (ks.foldl feistelRound (splitBlock (initialPermutation x))))

end Sys2Proof.Machine
end

