-- ==== Sys2Proof/Machine/DesBlock.lean ====
section
/-! DEFINITION. BLOCK in both directions, IPERM and FPERM (43_des_block.md R182, R184, R185). -/

namespace Sys2Proof.Machine

/-- BLOCK with the round keys in a given order (43_des_block.md R182). -/
def blockCommand (ks : List Subkey) (s : State) : StepOutcome :=
  withOperands (dinRegs ++ skRegs) s (succeed (writeDout (desBlock (dinValue s) ks) s))

/-- block.enc: SK[0], ..., SK[15] (43_des_block.md R182, d = 0). -/
def execBlockEnc (s : State) : StepOutcome := blockCommand (subkeys s) s

/-- block.dec: SK[15], ..., SK[0] (43_des_block.md R182, d = 1). -/
def execBlockDec (s : State) : StepOutcome := blockCommand (subkeys s).reverse s

/-- IPERM: DOUT <- IP(DIN) (43_des_block.md R184). -/
def execIperm (s : State) : StepOutcome :=
  withOperands dinRegs s (succeed (writeDout (initialPermutation (dinValue s)) s))

/-- FPERM: DOUT <- FP(DIN) (43_des_block.md R185). -/
def execFperm (s : State) : StepOutcome :=
  withOperands dinRegs s (succeed (writeDout (finalPermutation (dinValue s)) s))

end Sys2Proof.Machine
end

