-- ==== Sys2Proof/Machine/DesRound.lean ====
section
/-! DEFINITION. FFUNC and ROUND (42_des_round.md R161, R162). -/

namespace Sys2Proof.Machine

/-- FFUNC: F_OUT <- f(F_IN, FK) (42_des_round.md R161). -/
def execFfunc (s : State) : StepOutcome :=
  withOperands ffuncRegs s (succeed (writeFOut (roundFunction s.fIn (fkValue s)) s))

/-- ROUND k: one Feistel round on (FL, FR) with SK[k]; both writes use the values from before
(42_des_round.md R162). -/
def execRound (idx : BitVec 4) (s : State) : StepOutcome :=
  withOperands (.fl :: .fr :: subkeyRegs idx.toFin) s
    (succeed (writeFeistel s.fr (s.fl ^^^ roundFunction s.fr (subkey idx.toFin s)) s))

end Sys2Proof.Machine
end

