-- ==== Sys2Proof/Machine/Matrix.lean ====
section
/-! DEFINITION. Exact integer matrix arithmetic: determinant, adjugate, modular inverse, and the products
mod 26 (44_matrix_inverse.md R200-R204, R207; 45_hill.md R232, R233). An n x n matrix is a function of its
row and column, read at indices below n. `%` on Int is the Euclidean residue for 26 (00_scope.md R8). -/

namespace Sys2Proof.Machine

/-- A matrix by row and column, 0-based (00_scope.md R11). -/
abbrev IntMatrix := Nat → Nat → Int

/-- The sum over k in 0..n-1. -/
def sumBelow (n : Nat) (f : Nat → Int) : Int := ((List.range n).map f).sum

/-- The index that the x-th remaining row or column has when number `k` is removed. -/
def skipIndex (k x : Nat) : Nat := if x < k then x else x + 1

/-- `minor(a, i, j)` (44_matrix_inverse.md R201). -/
def matMinor (a : IntMatrix) (i j : Nat) : IntMatrix := fun r c => a (skipIndex i r) (skipIndex j c)

/-- `det(a)` of the n x n matrix, by cofactor expansion along the first row (44_matrix_inverse.md R200). -/
def matDet : Nat → IntMatrix → Int
  | 0, _ => 1
  | 1, a => a 0 0
  | 2, a => a 0 0 * a 1 1 - a 0 1 * a 1 0
  | n + 3, a => sumBelow (n + 3) fun j => a 0 j * (-1) ^ j * matDet (n + 2) (matMinor a 0 j)

/-- `cofactor(a, i, j)` of an n x n matrix (44_matrix_inverse.md R201). -/
def matCofactor (n : Nat) (a : IntMatrix) (i j : Nat) : Int := (-1) ^ (i + j) * matDet (n - 1) (matMinor a i j)

/-- `adj(a)`: its element [j][i] is cofactor(a, i, j) (44_matrix_inverse.md R202). -/
def matAdjugate (n : Nat) (a : IntMatrix) : IntMatrix := fun j i => matCofactor n a i j

/-- The transpose. -/
def matTranspose (a : IntMatrix) : IntMatrix := fun i j => a j i

/-- The transpose if T is set (44_matrix_inverse.md R206, R207). -/
def orient (t : Bool) (a : IntMatrix) : IntMatrix := if t then matTranspose a else a

/-- The product of the diagonal elements (44_matrix_inverse.md R207). -/
def diagProduct (n : Nat) (a : IntMatrix) : Int := ((List.range n).map fun i => a i i).prod

/-- `modinv26(d)`: the least i in 0..25 with (d i) mod 26 = 1 (44_matrix_inverse.md R204). -/
def modInv26 (d : Int) : Option Nat := (List.range 26).find? fun i => (d * (i : Int)) % 26 == 1

/-- The scaled adjugate mod 26 (44_matrix_inverse.md R207). -/
def matInverse26 (n : Nat) (a : IntMatrix) (di : Nat) : IntMatrix := fun i j => ((di : Int) * matAdjugate n a i j) % 26

/-- Matrix times column vector, mod 26 (45_hill.md R232). -/
def matVec26 (n : Nat) (x : IntMatrix) (v : Nat → Int) : Nat → Int := fun i => (sumBelow n fun j => x i j * v j) % 26

/-- Row vector times matrix, mod 26 (45_hill.md R233). -/
def vecMat26 (n : Nat) (x : IntMatrix) (v : Nat → Int) : Nat → Int := fun j => (sumBelow n fun i => v i * x i j) % 26

end Sys2Proof.Machine
end

