-- ==== Sys2Proof/Machine/Hill.lean ====
section
/-! DEFINITION. MVM and VMM (45_hill.md R230-R233). -/

namespace Sys2Proof.Machine

/-- mvm NxM: VOUT <- (MA · VIN) mod 26 (45_hill.md R232, S = 0). -/
def execMvm (n m : BitVec 3) (s : State) : StepOutcome :=
  matrixCommand n m s (fun k => maRegs k ++ vinRegs k) fun k =>
    succeed (writeVout k (matVec26 k (maEntry s) (vinEntry s)) s)

/-- mvm.s NxM: VOUT <- (MR · VIN) mod 26 (45_hill.md R232, S = 1). -/
def execMvmS (n m : BitVec 3) (s : State) : StepOutcome :=
  matrixCommand n m s (fun k => mrRegs k ++ vinRegs k) fun k =>
    succeed (writeVout k (matVec26 k (mrEntry s) (vinEntry s)) s)

/-- vmm NxM: VOUT <- (VIN · MA) mod 26 (45_hill.md R233, S = 0). -/
def execVmm (n m : BitVec 3) (s : State) : StepOutcome :=
  matrixCommand n m s (fun k => maRegs k ++ vinRegs k) fun k =>
    succeed (writeVout k (vecMat26 k (maEntry s) (vinEntry s)) s)

/-- vmm.s NxM: VOUT <- (VIN · MR) mod 26 (45_hill.md R233, S = 1). -/
def execVmmS (n m : BitVec 3) (s : State) : StepOutcome :=
  matrixCommand n m s (fun k => mrRegs k ++ vinRegs k) fun k =>
    succeed (writeVout k (vecMat26 k (mrEntry s) (vinEntry s)) s)

end Sys2Proof.Machine
end

