-- ==== Sys2Proof/Machine/KeySchedule.lean ====
section
/-! DEFINITION. KS (41_des_key_schedule.md R151). -/

namespace Sys2Proof.Machine

/-- KS: SK[0..15] <- keysched(KEY) (41_des_key_schedule.md R151). -/
def execKs (s : State) : StepOutcome :=
  withOperands keyRegs s (succeed (writeSubkeys (keySchedule (keyValue s)) s))

end Sys2Proof.Machine
end

