-- ==== Sys2Proof/Machine/MatrixInverse.lean ====
section
/-! DEFINITION. DET, ADJ and INV (44_matrix_inverse.md R205-R210). -/

namespace Sys2Proof.Machine

/-- DET NxM: DET <- det of MA's n x n block (44_matrix_inverse.md R205). -/
def execDet (n m : BitVec 3) (s : State) : StepOutcome :=
  matrixCommand n m s maRegs fun k => succeed (writeDet (matDet k (maEntry s)) s)

/-- ADJ and ADJ.T (44_matrix_inverse.md R206). -/
def adjCommand (t : Bool) (n m : BitVec 3) (s : State) : StepOutcome :=
  matrixCommand n m s maRegs fun k => succeed (writeMr k (orient t (matAdjugate k (maEntry s))) s)

/-- The results of a successful INV: DET, DINV and MR (44_matrix_inverse.md R207). -/
def writeInverse (t : Bool) (k : Nat) (d : Int) (di : Nat) (s : State) : State :=
  writeMr k (orient t (matInverse26 k (maEntry s) di)) (writeDinv di (writeDet d s))

/-- INV once the determinant is computed: the gcd check, then the inverse (44_matrix_inverse.md R207;
log 15). -/
def invFromDet (t : Bool) (k : Nat) (d : Int) (s : State) : StepOutcome :=
  if Int.gcd d 26 = 1 then
    match modInv26 d with
    | some di => succeed (writeInverse t k d di s)
    | none => .fault .inverseSearchStuck
  else raiseError .noModularInverse s

/-- INV and INV.T: shape, then the diagonal product, then the gcd (44_matrix_inverse.md R207, R209). -/
def invCommand (t : Bool) (n m : BitVec 3) (s : State) : StepOutcome :=
  matrixCommand n m s maRegs fun k =>
    if diagProduct k (maEntry s) = 0 then raiseError .notInvertible s
    else invFromDet t k (matDet k (maEntry s)) s

/-- adj NxM (44_matrix_inverse.md R206, T = 0). -/
def execAdj (n m : BitVec 3) (s : State) : StepOutcome := adjCommand false n m s

/-- adj.t NxM (44_matrix_inverse.md R206, T = 1). -/
def execAdjT (n m : BitVec 3) (s : State) : StepOutcome := adjCommand true n m s

/-- inv NxM (44_matrix_inverse.md R207, T = 0). -/
def execInv (n m : BitVec 3) (s : State) : StepOutcome := invCommand false n m s

/-- inv.t NxM (44_matrix_inverse.md R207, T = 1). -/
def execInvT (n m : BitVec 3) (s : State) : StepOutcome := invCommand true n m s

end Sys2Proof.Machine
end

