-- ==== Sys2Proof/Machine/Dispatch.lean ====
section
/-! DEFINITION. One arm per command: the completion step of a decoded command (60_exceptions.md R262). -/

namespace Sys2Proof.Machine

def exec (i : Instr) (s : State) : Host.Outcome State Fault Refusal :=
  match i with
  | .nop => Sys2Proof.Machine.execNop s
  | .ks => Sys2Proof.Machine.execKs s
  | .ffunc => Sys2Proof.Machine.execFfunc s
  | .round idx => Sys2Proof.Machine.execRound idx s
  | .blockEnc => Sys2Proof.Machine.execBlockEnc s
  | .blockDec => Sys2Proof.Machine.execBlockDec s
  | .iperm => Sys2Proof.Machine.execIperm s
  | .fperm => Sys2Proof.Machine.execFperm s
  | .det n m => Sys2Proof.Machine.execDet n m s
  | .adj n m => Sys2Proof.Machine.execAdj n m s
  | .adjT n m => Sys2Proof.Machine.execAdjT n m s
  | .inv n m => Sys2Proof.Machine.execInv n m s
  | .invT n m => Sys2Proof.Machine.execInvT n m s
  | .mvm n m => Sys2Proof.Machine.execMvm n m s
  | .mvmS n m => Sys2Proof.Machine.execMvmS n m s
  | .vmm n m => Sys2Proof.Machine.execVmm n m s
  | .vmmS n m => Sys2Proof.Machine.execVmmS n m s

end Sys2Proof.Machine
end

