-- ==== Sys2Proof/Machine/Engine.lean ====
section
/-! DEFINITION. The completion step of the engine, and the handling of one event
(60_exceptions.md R262, R263, R271). -/

namespace Sys2Proof.Machine

/-- The completion step: decode the latched word; an illegal word completes with ILLEGAL_CMD, a command
runs (60_exceptions.md R262, R263). -/
def completion (s : State) : StepOutcome :=
  match fetch s with
  | .ok i => exec i s
  | .error _ => raiseError .illegalCmd s

/-- The engine's turn while RST_N is high: completion is enabled exactly when BUSY = 1; an idle block
waits (60_exceptions.md R262, 70_reset_and_hazards.md R304; log 21). -/
def engineTurn (s : State) : StepOutcome := if s.status.busy then completion s else .next s

/-- One event (60_exceptions.md R271); while RST_N is low nothing but reset happens
(70_reset_and_hazards.md R300). -/
def handleEvent (e : Event) (s : State) : StepOutcome :=
  if s.rstN then
    match e with
    | .bus t => busTransfer t s
    | .engine => engineTurn s
    | .rstN level => .next (setRstN level s)
  else .next (heldInReset e s)

/-- The oldest pending event; with none pending the engine has its turn, so that an accepted command
completes (70_reset_and_hazards.md R330; log 2). -/
def nextEvent (s : State) : StepOutcome :=
  match s.events with
  | [] => handleEvent .engine s
  | e :: rest => handleEvent e { s with events := rest }

end Sys2Proof.Machine
end

