-- ==== Sys2Proof/Machine/Step.lean ====
section
/-! DEFINITION. One step of the block: one atomic event (20_memory.md R72, 60_exceptions.md R271), and where
a command stands that the very next step runs. -/

namespace Sys2Proof.Machine

/-- One step. A state whose STATUS breaks 10_state.md R28 faults (log 12); else the next event happens. -/
def step (s : State) : Host.Outcome State Fault Refusal :=
  if statusOk s.status then nextEvent s else .fault .impossibleCode

/-- `s` with a command word accepted (10_state.md R27) and the engine's turn next, RST_N high: the very next
step is the completion step of that word (log 7). -/
def State.withFetchWord (s : State) (nbits w : Nat) : State :=
  { accept (tableWord nbits w) s with rstN := true, events := .engine :: s.events }

end Sys2Proof.Machine
end

