-- ==== Sys2Proof/Machine/Assembler.lean ====
section
/-! DEFINITION. The command syntax: printing a command, reading one, and disassembly
(30_encoding.md R100, R101, R104). Text is a list of characters (log 18). -/

namespace Sys2Proof.Machine

/-- The mnemonic of a command, without its operands (30_encoding.md R100). -/
def mnemonicOf : Instr → List Char
  | .nop => "nop".toList
  | .ks => "ks".toList
  | .ffunc => "ffunc".toList
  | .round _ => "round".toList
  | .blockEnc => "block.enc".toList
  | .blockDec => "block.dec".toList
  | .iperm => "iperm".toList
  | .fperm => "fperm".toList
  | .det _ _ => "det".toList
  | .adj _ _ => "adj".toList
  | .adjT _ _ => "adj.t".toList
  | .inv _ _ => "inv".toList
  | .invT _ _ => "inv.t".toList
  | .mvm _ _ => "mvm".toList
  | .mvmS _ _ => "mvm.s".toList
  | .vmm _ _ => "vmm".toList
  | .vmmS _ _ => "vmm.s".toList

/-- A decimal digit as a character. -/
def digitChar (k : Nat) : Char := Char.ofNat ('0'.toNat + k)

/-- A number below 100 in decimal. -/
def decimalText (k : Nat) : List Char := if k < 10 then [digitChar k] else [digitChar (k / 10), digitChar (k % 10)]

/-- The operand text of a command: an index, a dimension `NxM`, or nothing (30_encoding.md R100). -/
def operandText (i : Instr) : List Char :=
  match i with
  | .round idx => ' ' :: decimalText idx.toNat
  | i =>
    match i.dims with
    | none => []
    | some (n, m) => [' ', digitChar n.toNat, 'x', digitChar m.toNat]

/-- The text of a command (30_encoding.md R100, R104). -/
def printCommand (i : Instr) : List Char := mnemonicOf i ++ operandText i

/-- One hexadecimal digit, upper case (30_encoding.md R104, `%08X`). -/
def hexDigit (k : Nat) : Char := if k < 10 then digitChar k else Char.ofNat ('A'.toNat + (k - 10))

/-- A word as eight hexadecimal digits. -/
def hexWord (w : Word) : List Char :=
  [7, 6, 5, 4, 3, 2, 1, 0].map fun k => hexDigit (w.extractLsb' (4 * k) 4).toNat

/-- The text `.word 0x%08X` of a word that names no command (30_encoding.md R104). -/
def printRaw (w : Word) : List Char := ".word 0x".toList ++ hexWord w

/-- Disassembly (30_encoding.md R104). -/
def disassemble (w : Word) : List Char :=
  match decode w with
  | .ok i => printCommand i
  | .error _ => printRaw w

/-- The value of a decimal digit. -/
def digitValue (c : Char) : Option Nat :=
  if '0'.toNat ≤ c.toNat ∧ c.toNat ≤ '9'.toNat then some (c.toNat - '0'.toNat) else none

/-- An index 0..15 in decimal, in one or two digits (log 18). -/
def readIndex : List Char → Option (BitVec 4)
  | [a] => (digitValue a).map (BitVec.ofNat 4)
  | [a, b] =>
    match digitValue a, digitValue b with
    | some x, some y => if 10 * x + y ≤ 15 then some (BitVec.ofNat 4 (10 * x + y)) else none
    | _, _ => none
  | _ => none

/-- `rows` or `cols`: a decimal 1..4. -/
def readExtent (c : Char) : Option (BitVec 3) :=
  match digitValue c with
  | some k => if 1 ≤ k ∧ k ≤ 4 then some (BitVec.ofNat 3 k) else none
  | none => none

/-- A dimension: `NxM`, or `N` alone for `NxN` (30_encoding.md R100). -/
def readDim : List Char → Option (BitVec 3 × BitVec 3)
  | [a] => (readExtent a).map fun n => (n, n)
  | [a, x, b] =>
    match readExtent a, readExtent b with
    | some n, some m => if x = 'x' then some (n, m) else none
    | _, _ => none
  | _ => none

/-- The matrix command of a mnemonic. -/
def matrixMnemonic (name : List Char) : Option (BitVec 3 → BitVec 3 → Instr) :=
  if name = "det".toList then some .det
  else if name = "adj".toList then some .adj
  else if name = "adj.t".toList then some .adjT
  else if name = "inv".toList then some .inv
  else if name = "inv.t".toList then some .invT
  else if name = "mvm".toList then some .mvm
  else if name = "mvm.s".toList then some .mvmS
  else if name = "vmm".toList then some .vmm
  else if name = "vmm.s".toList then some .vmmS
  else none

/-- The command of a mnemonic that takes no operand. -/
def plainMnemonic (name : List Char) : Option Instr :=
  if name = "nop".toList then some .nop
  else if name = "ks".toList then some .ks
  else if name = "ffunc".toList then some .ffunc
  else if name = "block.enc".toList then some .blockEnc
  else if name = "block.dec".toList then some .blockDec
  else if name = "iperm".toList then some .iperm
  else if name = "fperm".toList then some .fperm
  else none

/-- A command from its mnemonic and its operand text, both in lower case. -/
def readParts (name : List Char) (operand : Option (List Char)) : Option Instr :=
  match operand with
  | none => plainMnemonic name
  | some text =>
    if name = "round".toList then (readIndex text).map .round
    else
      match matrixMnemonic name, readDim text with
      | some mk, some (n, m) => some (mk n m)
      | _, _ => none

/-- The text before the first space, and the text after it if there is one. -/
def splitSpace : List Char → List Char × Option (List Char)
  | [] => ([], none)
  | c :: cs => if c = ' ' then ([], some cs) else ((c :: (splitSpace cs).1), (splitSpace cs).2)

/-- The value of a hexadecimal digit in lower case. -/
def hexValue (c : Char) : Option Nat :=
  match digitValue c with
  | some k => some k
  | none => if 'a'.toNat ≤ c.toNat ∧ c.toNat ≤ 'f'.toNat then some (c.toNat - 'a'.toNat + 10) else none

/-- The value of a hexadecimal number. -/
def hexNumber (acc : Nat) : List Char → Option Nat
  | [] => some acc
  | c :: cs =>
    match hexValue c with
    | some k => hexNumber (16 * acc + k) cs
    | none => none

/-- `hex32`, which 30_encoding.md R100 names and does not define. DESIGN CHOICE, safe (log 18): `0x` and one
to eight hexadecimal digits. -/
def readHex32 : List Char → Option Word
  | '0' :: 'x' :: digits =>
    if 1 ≤ digits.length ∧ digits.length ≤ 8 then (hexNumber 0 digits).map (BitVec.ofNat 32) else none
  | _ => none

/-- The command word of one line of text, case-insensitive (30_encoding.md R100, R101). -/
def assemble (text : List Char) : Option Word :=
  match splitSpace (text.map Char.toLower) with
  | (name, operand) =>
    if name = ".word".toList then operand.bind readHex32 else (readParts name operand).map encode

end Sys2Proof.Machine
end

