-- ==== Sys2Proof/Machine/HostProgram.lean ====
section
/-! DEFINITION. The host's statements and pseudo-instructions, each as the events it puts on the schedule
(30_encoding.md R102, R103; 46_control.md R253). A host program is the concatenation of its statements. -/

namespace Sys2Proof.Machine

/-- A host statement (30_encoding.md R102). -/
inductive HostStmt where
  /-- `wr NAME, v` -/
  | wr (r : Reg) (v : Word)
  /-- `rd NAME` -/
  | rd (r : Reg)
  /-- `<cmd>` -/
  | cmd (i : Instr)
  /-- `.word v`: a raw command word (30_encoding.md R100) -/
  | word (w : Word)
  /-- `wait`, whose loop reads STATUS `polls` times before the completion and once after it (log 17) -/
  | wait (polls : Nat)
  /-- `ack` -/
  | ack
  /-- `sreset` -/
  | sreset
  /-- `ien` -/
  | ien
  /-- `idis` -/
  | idis
  deriving DecidableEq, Repr

/-- The write transfer of a register. -/
def writeEvent (r : Reg) (v : Word) : Event :=
  .bus { paddr := regOffset r, pwrite := true, pwdata := v, pstrb := 0b1111#4 }

/-- The read transfer of a register, with PWDATA and PSTRB as 0 (log 24). -/
def readEvent (r : Reg) : Event :=
  .bus { paddr := regOffset r, pwrite := false, pwdata := 0#32, pstrb := 0#4 }

/-- The accesses of one statement, in order (30_encoding.md R102). -/
def stmtEvents : HostStmt → List Event
  | .wr r v => [writeEvent r v]
  | .rd r => [readEvent r]
  | .cmd i => [writeEvent .cmd (encode i)]
  | .word w => [writeEvent .cmd w]
  | .wait polls => List.replicate polls (readEvent .status) ++ [.engine, readEvent .status]
  | .ack => [writeEvent .status 0x00000106#32]
  | .sreset => [writeEvent .ctrl 0x00000002#32]
  | .ien => [writeEvent .ctrl 0x00000001#32]
  | .idis => [writeEvent .ctrl 0x00000000#32]

/-- The accesses of a host program, in program order (20_memory.md R73). DESIGN CHOICE, unsafe (log 23): a
command completes inside the next `wait`, one of the orders that U11 and U12 of
93_implementation_defined.md leave open. `completeAfter` gives the others. -/
def programEvents (p : List HostStmt) : List Event := p.flatMap stmtEvents

/-- The same accesses with an engine turn after the first `k` of them: the completion may come between any
two accesses (93_implementation_defined.md U11, U12; log 23). -/
def completeAfter (k : Nat) (es : List Event) : List Event := es.take k ++ .engine :: es.drop k

/-- The host appends a program to what it has still to send, in the order of `programEvents` (log 23). -/
def issue (p : List HostStmt) (s : State) : State := { s with events := s.events ++ programEvents p }

/-- A pseudo-instruction (30_encoding.md R103). `n` is a dimension 1..4, elements are 8-bit values. -/
inductive Pseudo where
  | desKey (k : Block)
  | desEnc (x : Block)
  | desDec (x : Block)
  | matLoad (n : BitVec 3) (a : Vector (Vector Byte 4) 4)
  | vecLoad (n : BitVec 3) (v : Vector Byte 4)
  | hillEnc (n : BitVec 3)
  | hillDeckey (n : BitVec 3)
  | hillDec (n : BitVec 3)
  deriving DecidableEq, Repr

/-- The indices 0..n-1 of a dimension. -/
def indicesBelow (n : BitVec 3) : List (Fin 4) := (List.finRange 4).filter fun i => decide (i.val < n.toNat)

/-- The expansion of a pseudo-instruction; `polls` is that of its `wait` (30_encoding.md R103). -/
def expand (polls : Nat) : Pseudo → List HostStmt
  | .desKey k => [.wr .keyHi (k.extractLsb' 32 32), .wr .keyLo (k.extractLsb' 0 32), .cmd .ks, .wait polls]
  | .desEnc x => [.wr .dinHi (x.extractLsb' 32 32), .wr .dinLo (x.extractLsb' 0 32), .cmd .blockEnc, .wait polls]
  | .desDec x => [.wr .dinHi (x.extractLsb' 32 32), .wr .dinLo (x.extractLsb' 0 32), .cmd .blockDec, .wait polls]
  | .matLoad n a =>
    (indicesBelow n).flatMap fun i => (indicesBelow n).map fun j =>
      .wr (.ma i j) (((a[i.val]'i.isLt)[j.val]'j.isLt).setWidth 32)
  | .vecLoad n v => (indicesBelow n).map fun j => .wr (.vin j) ((v[j.val]'j.isLt).setWidth 32)
  | .hillEnc n => [.cmd (.mvm n n), .wait polls]
  | .hillDeckey n => [.cmd (.invT n n), .wait polls]
  | .hillDec n => [.cmd (.vmmS n n), .wait polls]

end Sys2Proof.Machine
end

