-- ==== Sys2Proof/Safety.lean ====
section
/-! DEFINITION. The terms claims use: what a safe step is, the host discipline of 70_reset_and_hazards.md
R320-R322, the table of 10_state.md R44, and the invariants of the machine. -/

namespace Sys2Proof.Machine

/-- The machine goes on. -/
def goesOn (o : StepOutcome) : Prop := ∃ t, o = .next t

/-- An event by a host that keeps the hazard rules: every access is accepted and names a register, and while
BUSY = 1 it reads or writes a control register other than by a write to CMD
(20_memory.md R61; 70_reset_and_hazards.md R320-R322). -/
def mannerly (e : Event) (s : State) : Bool :=
  match e with
  | .engine => true
  | .rstN _ => true
  | .bus t =>
    accepted t &&
      match regAt t.paddr with
      | none => false
      | some r => !s.status.busy || (isControl r && !(t.pwrite && r == .cmd))

/-- The registers a command writes on success (10_state.md R44). -/
def resultRegs : Instr → List Reg
  | .nop => []
  | .ks => skRegs
  | .ffunc => [.fOut]
  | .round _ => [.fl, .fr]
  | .blockEnc | .blockDec | .iperm | .fperm => [.doutHi, .doutLo]
  | .det _ _ => [.detLo, .detHi]
  | .adj _ _ | .adjT _ _ => matrixRegs .mr
  | .inv _ _ | .invT _ _ => [.detLo, .detHi, .dinv] ++ matrixRegs .mr
  | .mvm _ _ | .mvmS _ _ | .vmm _ _ | .vmmS _ _ => (List.finRange 4).map .vout

/-- The registers a command reads (10_state.md R44, 70_reset_and_hazards.md R307). -/
def operandRegs : Instr → List Reg
  | .nop => []
  | .ks => keyRegs
  | .ffunc => ffuncRegs
  | .round idx => .fl :: .fr :: subkeyRegs idx.toFin
  | .blockEnc | .blockDec => dinRegs ++ skRegs
  | .iperm | .fperm => dinRegs
  | .det n _ | .adj n _ | .adjT n _ | .inv n _ | .invT n _ => maRegs n.toNat
  | .mvm n _ | .vmm n _ => maRegs n.toNat ++ vinRegs n.toNat
  | .mvmS n _ | .vmmS n _ => mrRegs n.toNat ++ vinRegs n.toNat

/-- RST_N is high and STATUS keeps 10_state.md R28: the next event happens. -/
abbrev running (s : State) : Prop := statusOk s.status = true ∧ s.rstN = true

/-- The fields that no command touches: the pin, the port's data, the switches, the draws and the events. -/
abbrev sameEnvironment (s t : State) : Prop :=
  t.rstN = s.rstN ∧ t.prdata = s.prdata ∧ t.cfg = s.cfg ∧ t.drawCount = s.drawCount ∧ t.events = s.events

/-- STATUS after the completion of a command that started in `s` (60_exceptions.md R262). -/
def completedStatus (code : BitVec 4) (s : State) : Status :=
  { busy := false, done := true, err := decide (code ≠ 0#4), errcode := code, overrun := s.status.overrun }

/-- `t` is `s` after a successful command `i`, up to the values of its result registers: STATUS says so, every
register outside the command's row of 10_state.md R44 reads as before, and only its results count as written. -/
def completedOk (i : Instr) (s t : State) : Prop :=
  t.status = completedStatus 0#4 s ∧ sameEnvironment s t ∧
  (∀ r : Reg, r ∉ resultRegs i → r ≠ .status → readReg r t = readReg r s) ∧
  (∀ r : Reg, r ∈ t.written ↔ r ∈ resultRegs i ∨ r ∈ s.written)

/-- `s` after a failed command: STATUS holds the code, and nothing else has changed (60_exceptions.md R264). -/
def failedState (code : BitVec 4) (s : State) : State := { s with status := completedStatus code s }

/-- Every register reads as its reset value, none counts as written, and IRQ is low (10_state.md R45). -/
def atReset (s : State) : Prop :=
  (∀ r : Reg, readReg r s = if r = .id then 0x43544342#32 else 0#32) ∧ s.written = [] ∧ irq s = false

/-- The next event of `s` is a reset: RST_N is low or goes low, or the host writes CTRL with bit 1 set
(70_reset_and_hazards.md R300, R302). -/
def resetNext (s : State) : Prop :=
  s.rstN = false ∨ (∃ rest, s.events = .rstN false :: rest) ∨
    ∃ w rest, s.events = writeEvent .ctrl w :: rest ∧ w.getLsbD 1 = true

/-- The next event of `s` is the engine's turn: it stands first, or nothing else is pending. -/
def engineNext (s : State) : Prop := s.events = [] ∨ ∃ rest, s.events = .engine :: rest

/-- Commands run one after another, each from what the one before left. -/
def runCommands : List Instr → State → StepOutcome
  | [], s => .next s
  | i :: is, s =>
    match exec i s with
    | .next t => runCommands is t
    | .fault f => .fault f
    | .refused r => .refused r

/-- The host reads registers and writes what it read to others, one after another (20_memory.md R76). -/
def hostCopy (moves : List (Reg × Reg)) (s : State) : State :=
  moves.foldl (fun u p => writeOperand p.2 (readReg p.1 u) u) s

/-- The host swaps FL and FR through temporaries (42_des_round.md R163). -/
def swapHalves (s : State) : State := writeOperand .fr s.fl (writeOperand .fl s.fr s)

/-- VOUT[j] as a number; no element lies outside 0..3 (10_state.md R38). -/
def voutEntry (s : State) (j : Nat) : Int := if h : j < 4 then ((s.vout[j]'h).toNat : Int) else 0

/-- ROUND 0, ..., ROUND 15 (43_des_block.md R186). -/
def sixteenRounds : List Instr := (List.finRange 16).map fun r => .round (BitVec.ofFin r)

/-- Position `i` of `f(R, K)`, read off the tables bit by bit (42_des_round.md R160; 40_des_primitives.md R124,
R125): position P[i] of the S-box outputs lies in the output of S-box `g`, whose input is group `g` of
E(R) xor K. -/
def roundBit (r : Half) (k : Subkey) (i : Nat) : Bool :=
  let p := tableP.getD (i - 1) 0 - 1
  let g := p / 4 + 1
  let b := fun j => position r (tableE.getD (6 * (g - 1) + j - 1) 0) ^^ position k (6 * (g - 1) + j)
  let row := 2 * (b 1).toNat + (b 6).toNat
  let col := 8 * (b 2).toNat + 4 * (b 3).toNat + 2 * (b 4).toNat + (b 5).toNat
  (sboxEntry g row col).testBit (3 - p % 4)

/-- How far the key halves have rotated after each round, the cumulative row of 95_test_vectors.md S-1. -/
def cumulativeShift : List Nat := [1, 2, 4, 6, 8, 10, 12, 14, 15, 17, 19, 21, 23, 25, 27, 28]

/-- The field width rule of a host-writable register: what a read returns after a write of `w`
(10_state.md R30-R37). -/
def widthRule (r : Reg) (w : Word) : Word :=
  match r with
  | .fKhi | .skHi _ => w &&& 0x0000FFFF#32
  | .ma _ _ | .vin _ => (w.extractLsb' 0 8).signExtend 32
  | .keyHi | .keyLo | .dinHi | .dinLo | .fl | .fr | .fIn | .fKlo | .skLo _ => w
  | .id | .ctrl | .status | .cmd | .doutHi | .doutLo | .fOut | .vout _ | .detLo | .detHi | .dinv | .mr _ _ => w

/-- The matrix commands with the same N and M (44_matrix_inverse.md R203). -/
def matrixCommands (n m : BitVec 3) : List Instr :=
  [.det n m, .adj n m, .adjT n m, .inv n m, .invT n m, .mvm n m, .mvmS n m, .vmm n m, .vmmS n m]

/-- Every VOUT element is a residue mod 26 (10_state.md R38, 45_hill.md R235). -/
def voutInRange (s : State) : Prop := ∀ j : Fin 4, (s.vout[j.val]'j.isLt).toNat < 26

/-- DINV is 0, as after reset, or a modular inverse of some determinant: a unit mod 26 (10_state.md R40,
44_matrix_inverse.md R204). -/
def dinvUnit (s : State) : Prop := s.dinv = 0#5 ∨ (s.dinv.toNat < 26 ∧ Nat.gcd s.dinv.toNat 26 = 1)

/-- A register that nothing has written since reset still reads as its reset value 0
(70_reset_and_hazards.md R301, R324). -/
def unwrittenReadsZero (s : State) : Prop :=
  ∀ r : Reg, isControl r = false → r ∉ s.written → readReg r s = 0#32

/-- The invariant of the machine: STATUS keeps 10_state.md R28, VOUT and DINV keep their ranges, the
register list has no repeats, and what was never written reads 0. -/
structure Inv (s : State) : Prop where
  status : statusOk s.status = true
  vout : voutInRange s
  dinv : dinvUnit s
  nodup : s.written.Nodup
  unwritten : unwrittenReadsZero s

end Sys2Proof.Machine
end

