-- ==== Sys2Proof/Certificates/Slice0/Obligations.lean ====
section
/-! DEFINITION. The statements for the provers. Each docstring names the rule of spec/ it comes from. -/

open Sys2Proof Sys2Proof.Machine

/-- Words written out from the spec decode to the commands they stand for, and illegal words are refused.
(30_encoding.md E6 (R101); 95_test_vectors.md Encoding and decoding) -/
def Obligations.SpecWordsDecode : Prop :=
  decode 0x00000000#32 = .ok .nop ∧ decode 0x00000001#32 = .ok .ks ∧ decode 0x00000002#32 = .ok .ffunc ∧
  decode 0x000000F3#32 = .ok (.round 15#4) ∧ decode 0x00000004#32 = .ok .blockEnc ∧
  decode 0x00000104#32 = .ok .blockDec ∧ decode 0x00000005#32 = .ok .iperm ∧ decode 0x00000006#32 = .ok .fperm ∧
  decode 0x00033008#32 = .ok (.det 3#3 3#3) ∧ decode 0x00022209#32 = .ok (.adjT 2#3 2#3) ∧
  decode 0x0001200A#32 = .ok (.inv 2#3 1#3) ∧ decode 0x0002240B#32 = .ok (.mvmS 2#3 2#3) ∧
  decode 0x0002200C#32 = .ok (.vmm 2#3 2#3) ∧
  decode 0x00000007#32 = .error .reservedOpcode ∧ decode 0x00022808#32 = .error .reservedBits ∧
  decode 0x00055008#32 = .error .badDimension ∧ decode 0x00000103#32 = .error .unusedField

/-- Decoding the word of a well-formed command gives that command back.
(30_encoding.md E3 (R98); 30_encoding.md E6 (R101)) -/
def Obligations.DecodeOfEncode : Prop :=
  ∀ i : Instr, i.wellFormed = true → decode (encode i) = .ok i

/-- A word that decodes to a command is that command's one word, and the command is well formed.
(30_encoding.md E3 (R98); 30_encoding.md E4 (R99); 30_encoding.md E6 (R101)) -/
def Obligations.EncodeOfDecode : Prop :=
  ∀ (w : Word) (i : Instr), decode w = .ok i → i.wellFormed = true ∧ encode i = w

/-- A word is refused exactly when it falls in one of the five classes of illegal words.
(30_encoding.md E4 (R99); 30_encoding.md E3 (R98)) -/
def Obligations.IllegalWordClasses : Prop :=
  ∀ w : Word, (∃ e, decode w = .error e) ↔
    ((w.extractLsb' 0 4).toNat ∈ [0x7, 0xD, 0xE, 0xF]) ∨
    (w.getLsbD 11 = true ∨ w.getLsbD 15 = true ∨ w.extractLsb' 19 13 ≠ 0#13) ∨
    ((w.extractLsb' 4 4 ≠ 0#4 ∧ (w.extractLsb' 0 4).toNat ≠ 0x3) ∨
      (w.getLsbD 8 = true ∧ (w.extractLsb' 0 4).toNat ≠ 0x4) ∨
      (w.getLsbD 9 = true ∧ (w.extractLsb' 0 4).toNat ∉ [0x9, 0xA]) ∨
      (w.getLsbD 10 = true ∧ (w.extractLsb' 0 4).toNat ∉ [0xB, 0xC])) ∨
    ((w.extractLsb' 0 4).toNat ∈ [0x8, 0x9, 0xA, 0xB, 0xC] ∧
      (¬ (1 ≤ (w.extractLsb' 12 3).toNat ∧ (w.extractLsb' 12 3).toNat ≤ 4) ∨
        ¬ (1 ≤ (w.extractLsb' 16 3).toNat ∧ (w.extractLsb' 16 3).toNat ≤ 4))) ∨
    ((w.extractLsb' 0 4).toNat ≤ 6 ∧ (w.extractLsb' 12 3 ≠ 0#3 ∨ w.extractLsb' 16 3 ≠ 0#3))

/-- Assembling the disassembly of any word gives the word back.
(30_encoding.md E6 (R104); 30_encoding.md E6 (R100)) -/
def Obligations.AssembleOfDisassemble : Prop :=
  ∀ w : Word,
    (∀ i, decode w = .ok i → disassemble w = printCommand i) ∧
    (∀ e, decode w = .error e → disassemble w = printRaw w) ∧
    assemble (disassemble w) = some w

/-- A step runs the command that the latched word decodes to.
The model's choice: with no event pending the step is the engine's turn (log 2, DEDUCED from R330, unsafe for a block that
hangs), and withFetchWord stands for an accepted write of CMD with the engine's turn next (log 7, DEDUCED).
(60_exceptions.md Completion (R262); 20_memory.md D4 (R75)) -/
def Obligations.StepRunsDecodedCommand : Prop :=
  (∀ (s : State) (i : Instr), running s → s.status.busy = true → decode s.cmd = .ok i →
    (s.events = [] → step s = exec i s) ∧
    (∀ rest, s.events = .engine :: rest → step s = exec i { s with events := rest })) ∧
  (∀ (s : State) (nbits w : Nat) (i : Instr), decodeTableWord nbits w = some i →
    step (s.withFetchWord nbits w) = exec i { accept (tableWord nbits w) s with rstN := true })

/-- An illegal command word completes with ILLEGAL_CMD and writes nothing else.
The model's choice: with no event pending the step is the completion (log 2, DEDUCED from R330, unsafe for a block that hangs).
(60_exceptions.md Completion (R263); 60_exceptions.md G1 (R260)) -/
def Obligations.IllegalWordCompletes : Prop :=
  ∀ (s : State) (e : Illegal), running s → s.status.busy = true → decode s.cmd = .error e →
    (s.events = [] → step s = .next (failedState 1#4 s)) ∧
    (∀ rest, s.events = .engine :: rest → step s = .next (failedState 1#4 { s with events := rest }))

/-- A write of CMD while idle accepts the word, whatever it is.
(R27) -/
def Obligations.CommandWordAccepted : Prop :=
  ∀ (s : State) (w : Word) (rest : List Event), running s → s.status.busy = false →
    s.events = writeEvent .cmd w :: rest →
    step s = .next { s with
      cmd := w
      status := { busy := true, done := false, err := false, errcode := 0#4, overrun := s.status.overrun }
      events := rest }

/-- An accepted command completes at the engine's next turn.
The model's choice: with no event pending the engine has its turn (log 2, DEDUCED from R330, unsafe for a block that hangs).
(60_exceptions.md Completion (R262); 70_reset_and_hazards.md J2 (R330)) -/
def Obligations.AcceptedCommandCompletes : Prop :=
  ∀ s : State, running s → s.status.busy = true → engineNext s →
    (∀ i, decode s.cmd = .ok i → operandsReady (operandRegs i) s = true) →
    ∃ t, step s = .next t ∧ t.status.busy = false ∧ t.status.done = true ∧
      (t.status.err = true ↔ t.status.errcode ≠ 0#4) ∧
      t.cmd = s.cmd ∧ t.ie = s.ie ∧ t.status.overrun = s.status.overrun

/-- A command writes only the registers in its row, and on an error nothing but STATUS.
(10_state.md Which command writes which register (R44); 60_exceptions.md Completion (R262, R264)) -/
def Obligations.CompletionFrame : Prop :=
  ∀ (i : Instr) (s t : State), exec i s = .next t →
    t.status = completedStatus t.status.errcode s ∧ t.status.errcode.toNat ≤ 4 ∧
    sameEnvironment s t ∧ t.ie = s.ie ∧ t.cmd = s.cmd ∧
    (∀ r : Reg, r ∉ resultRegs i → r ≠ .status → readReg r t = readReg r s) ∧
    (t.status.errcode ≠ 0#4 → t = failedState t.status.errcode s)

/-- The outcome of a command depends only on the registers it reads.
(10_state.md Which command writes which register (R44); 41_des_key_schedule.md KS (R152)) -/
def Obligations.ResultsDependOnOperandsOnly : Prop :=
  ∀ (i : Instr) (s₁ s₂ t₁ : State), (∀ r ∈ operandRegs i, readReg r s₁ = readReg r s₂) →
    exec i s₁ = .next t₁ → operandsReady (operandRegs i) s₂ = true →
    ∃ t₂, exec i s₂ = .next t₂ ∧ t₂.status.errcode = t₁.status.errcode ∧
      (t₁.status.errcode = 0#4 → ∀ r ∈ resultRegs i, readReg r t₁ = readReg r t₂)

/-- A command with N = M, or without N and M, faults exactly when FAULT_ON_UNWRITTEN is set and an operand was never
written.
The model's choice: the operand list of R307 counts as read whole, INV's block before the diagonal check (log 9, DEDUCED).
(70_reset_and_hazards.md J1 (R324); 70_reset_and_hazards.md I2 (R307); 93_implementation_defined.md U9) -/
def Obligations.UnwrittenOperandFaults : Prop :=
  (∀ (i : Instr) (s : State), i.wellFormed = true → (∀ n m, i.dims = some (n, m) → n = m) →
    (exec i s = .fault .unwrittenOperand ↔
      s.cfg.faultOnUnwritten = true ∧ ∃ r ∈ operandRegs i, r ∉ s.written)) ∧
  (∀ (i : Instr) (s : State) (f : Fault), exec i s = .fault f → f = .unwrittenOperand)

/-- Each register lies at its offset, and an offset names at most one register.
(10_state.md Register map (R21); 20_memory.md Bus accesses (R62); 20_memory.md B6 and C4 (R63)) -/
def Obligations.RegisterMapIsBijective : Prop :=
  (∀ r : Reg, regAt (regOffset r) = some r ∧ (regOffset r).toNat = regOffsetNat r) ∧
  (∀ (off : Offset) (r : Reg), regAt off = some r → regOffset r = off) ∧
  (∀ (off : Offset), off.toNat ≥ 0x1C0 → regAt off = none)

/-- An address in the 4 KiB window at CTCB_BASE reaches the block at its offset, and no other address does.
The model's choice: a read carries PWDATA = 0 and PSTRB = 0 (log 24, DESIGN CHOICE).
(00_scope.md A4 (R4); 20_memory.md Bus accesses (R60)) -/
def Obligations.HostAddressesReachTheWindow : Prop :=
  Config.ctcbBase % 4096 = 0 ∧
  (∀ (off : Offset) (w : Word),
    hostRead (Config.ctcbBase + off.toNat) = some { paddr := off, pwrite := false, pwdata := 0#32, pstrb := 0#4 } ∧
    hostWrite (Config.ctcbBase + off.toNat) w = some { paddr := off, pwrite := true, pwdata := w, pstrb := 0b1111#4 }) ∧
  (∀ (addr : Nat) (w : Word), addr < Config.ctcbBase ∨ Config.ctcbBase + 4096 ≤ addr →
    hostRead addr = none ∧ hostWrite addr w = none)

/-- A misaligned access, or a write without all four byte lanes, is refused.
(R61) -/
def Obligations.RefusedAccessFaults : Prop :=
  (∀ b : Transfer, accepted b = true ↔
    b.paddr.extractLsb' 0 2 = 0#2 ∧ (b.pwrite = true → b.pstrb = 0b1111#4)) ∧
  (∀ (s : State) (b : Transfer) (rest : List Event), running s → s.events = .bus b :: rest →
    ¬ (b.paddr.extractLsb' 0 2 = 0#2 ∧ (b.pwrite = true → b.pstrb = 0b1111#4)) →
    step s = .fault (.busFault b.paddr b.pwrite b.pstrb) ∧ pslverr b = true ∧ responseData b s = 0#32)

/-- A reserved offset reads as zero and ignores writes, or faults under STRICT_DECODE.
(20_memory.md B6 and C4 (R64); 93_implementation_defined.md U8) -/
def Obligations.ReservedOffsetAccess : Prop :=
  ∀ (s : State) (b : Transfer) (rest : List Event), running s → s.events = .bus b :: rest →
    accepted b = true → regAt b.paddr = none →
    (s.cfg.strictDecode = false → b.pwrite = true → step s = .next { s with events := rest }) ∧
    (s.cfg.strictDecode = false → b.pwrite = false → step s = .next { s with events := rest, prdata := 0#32 }) ∧
    (s.cfg.strictDecode = true → step s = .fault (.busFault b.paddr b.pwrite b.pstrb))

/-- A read answers the register's value, a draw while BUSY from 0x040 on, and changes no register.
(20_memory.md Access dispatch (R70); 70_reset_and_hazards.md J1 (R322); 20_memory.md C3 (R68)) -/
def Obligations.ReadAnswersAndChangesNothing : Prop :=
  ∀ (s : State) (b : Transfer) (rest : List Event) (r : Reg), running s → s.events = .bus b :: rest →
    accepted b = true → b.pwrite = false → regAt b.paddr = some r →
    (s.status.busy = true ∧ 0x040 ≤ b.paddr.toNat →
      step s = .next { s with events := rest, prdata := Config.draw s.drawCount, drawCount := s.drawCount + 1 }) ∧
    (¬ (s.status.busy = true ∧ 0x040 ≤ b.paddr.toNat) →
      step s = .next { s with events := rest, prdata := readReg r s })

/-- A write of an operand register while idle, then a read of it, returns the written field, and no other register changes.
(20_memory.md D1 (R72); 10_state.md B1 and B5 (R30 to R37)) -/
def Obligations.WriteThenReadReturnsField : Prop :=
  ∀ (s : State) (r : Reg) (w : Word) (rest : List Event), running s → s.status.busy = false →
    hostWritable r = true → s.events = writeEvent r w :: readEvent r :: rest →
    ∃ t u, step s = .next t ∧ step t = .next u ∧ u.prdata = widthRule r w ∧ u.events = rest ∧
      (∀ q : Reg, q ≠ r → readReg q u = readReg q s) ∧ readReg r u = widthRule r w

/-- A write to a read-only register is ignored, and sets OVERRUN only while BUSY and never for ID.
(10_state.md B1 and B5 (R42)) -/
def Obligations.ReadOnlyWritesIgnored : Prop :=
  ∀ (s : State) (r : Reg) (w : Word) (rest : List Event), running s → s.events = writeEvent r w :: rest →
    (r ∈ [Reg.id, Reg.doutHi, Reg.doutLo, Reg.fOut, Reg.detLo, Reg.detHi, Reg.dinv] ∨
      (∃ j, r = .vout j) ∨ ∃ i j, r = .mr i j) →
    (s.status.busy = false ∨ r = .id → step s = .next { s with events := rest }) ∧
    (s.status.busy = true → r ≠ .id →
      step s = .next { s with events := rest, status := { s.status with overrun := true } })

/-- While BUSY = 1 a write to CMD or to a register from 0x040 on is dropped and sets OVERRUN; the others act as when idle.
(R321) -/
def Obligations.WritesWhileBusyAreDropped : Prop :=
  ∀ (s : State) (off : Offset) (w : Word) (rest : List Event), running s → s.status.busy = true →
    s.events = .bus { paddr := off, pwrite := true, pwdata := w, pstrb := 0b1111#4 } :: rest →
    (∀ r, regAt off = some r → r = .cmd ∨ (0x040 ≤ off.toNat ∧ off.toNat ≤ 0x1BC) →
      step s = .next { s with events := rest, status := { s.status with overrun := true } }) ∧
    (off.extractLsb' 0 2 = 0#2 → regAt off = none → s.cfg.strictDecode = false →
      step s = .next { s with events := rest }) ∧
    (regAt off = some .id → step s = .next { s with events := rest }) ∧
    (regAt off = some .status →
      step s = .next { s with events := rest, status := statusWrite w s.status }) ∧
    (regAt off = some .ctrl → w.getLsbD 1 = false →
      step s = .next { s with events := rest, ie := w.getLsbD 0 }) ∧
    (regAt off = some .ctrl → w.getLsbD 1 = true → ∃ t, step s = .next t ∧ atReset t ∧ t.events = rest)

/-- A write to STATUS clears the bits it selects and can set none.
(R25) -/
def Obligations.StatusWriteClearsSelectedBits : Prop :=
  ∀ (s : State) (w : Word) (rest : List Event), running s → s.events = writeEvent .status w :: rest →
    step s = .next { s with
      events := rest
      status :=
        { busy := s.status.busy
          done := s.status.done && !w.getLsbD 1
          err := s.status.err && !w.getLsbD 2
          errcode := if w.getLsbD 2 = true then 0#4 else s.status.errcode
          overrun := s.status.overrun && !w.getLsbD 8 } }

/-- A write to CTRL sets IE from bit 0, or resets the block if bit 1 is set, whatever BUSY is.
(10_state.md B4 (R23); 70_reset_and_hazards.md I1 (R302)) -/
def Obligations.ControlWriteSetsEnableOrResets : Prop :=
  ∀ (s : State) (w : Word) (rest : List Event), running s → s.events = writeEvent .ctrl w :: rest →
    (w.getLsbD 1 = false → step s = .next { s with events := rest, ie := w.getLsbD 0 }) ∧
    (w.getLsbD 1 = true → ∃ t, step s = .next t ∧ atReset t ∧ t.status = Status.reset ∧
      readReg .ctrl t = 0#32 ∧ t.rstN = true ∧ t.events = rest ∧ t.cfg = s.cfg)

/-- After reset every register is 0 except ID, the block is idle and IRQ is 0, on RST_N and on CTRL.SRST.
The model's choice: while RST_N is low a misaligned access, or under STRICT_DECODE one to a reserved offset, answers a next
state too and not BusFault (log 11, DESIGN CHOICE, unsafe).
(10_state.md I1 Reset values (R45); 70_reset_and_hazards.md I1 (R300, R302)) -/
def Obligations.ResetValues : Prop :=
  atReset State.reset ∧ State.reset.status.busy = false ∧
  (∀ s : State, statusOk s.status = true → resetNext s →
    ∃ t, step s = .next t ∧ atReset t ∧ t.status.busy = false)

/-- While RST_N is low the block stays in reset, ignores every access and reads as 0.
The model's choice: a misaligned access, or under STRICT_DECODE one to a reserved offset, is ignored too and is no fault
there (log 11, DESIGN CHOICE, unsafe).
(70_reset_and_hazards.md I1 (R300)) -/
def Obligations.HeldInReset : Prop :=
  ∀ (s : State) (e : Event) (rest : List Event), statusOk s.status = true → s.rstN = false → s.events = e :: rest →
    ∃ t, step s = .next t ∧ atReset t ∧ t.events = rest ∧ t.cfg = s.cfg ∧
      (∀ b, e = .bus b → b.pwrite = false → t.prdata = 0#32) ∧
      (t.rstN = true ↔ e = .rstN true)

/-- IRQ is IE and DONE: it rises at completion when enabled and falls on acknowledge, disable or the next command.
(60_exceptions.md G2 (R270); 60_exceptions.md G4, G5 (R269)) -/
def Obligations.InterruptLine : Prop :=
  (∀ (i : Instr) (s t : State), exec i s = .next t → irq t = s.ie) ∧
  (∀ (s : State) (w : Word) (rest : List Event), running s →
    (s.events = writeEvent .status w :: rest → w.getLsbD 1 = true → ∃ t, step s = .next t ∧ irq t = false) ∧
    (s.events = writeEvent .ctrl w :: rest → w.getLsbD 1 = false →
      ∃ t, step s = .next t ∧ irq t = (w.getLsbD 0 && s.status.done)) ∧
    (s.events = writeEvent .cmd w :: rest → s.status.busy = false → ∃ t, step s = .next t ∧ irq t = false))

/-- A CMD write and the completion may come in either order, with the two outcomes the spec allows.
(60_exceptions.md Simultaneous events (R271); 93_implementation_defined.md U12) -/
def Obligations.CompletionAndWriteEitherOrder : Prop :=
  ∀ (s : State) (w : Word) (rest : List Event), running s → s.status.busy = true →
    (∀ t, s.events = .engine :: writeEvent .cmd w :: rest → step s = .next t →
      ∃ u, step t = .next u ∧ u.cmd = w ∧ u.status.busy = true ∧ u.status.done = false ∧
        u.status.overrun = s.status.overrun ∧ u.events = rest) ∧
    (s.events = writeEvent .cmd w :: .engine :: rest →
      ∃ t, step s = .next t ∧ t.cmd = s.cmd ∧ t.status.overrun = true ∧ t.status.busy = true ∧
        t.events = .engine :: rest)

/-- The invariant holds after reset.
(70_reset_and_hazards.md I1 (R301); 10_state.md B4 (R28)) -/
def Obligations.ResetKeepsInvariant : Prop :=
  Inv State.reset

/-- Every step keeps the invariant.
(10_state.md B4 (R28); 10_state.md B1 and B5 (R38, R40); 45_hill.md Properties (R235); 70_reset_and_hazards.md J1 (R324)) -/
def Obligations.StepKeepsInvariant : Prop :=
  ∀ s t : State, Inv s → step s = .next t → Inv t

/-- ERR goes with ERRCODE, BUSY excludes DONE, ERR and ERRCODE, and no reserved code appears.
(R28) -/
def Obligations.StatusRulesHoldAndAreEnforced : Prop :=
  (∀ s : State, (s = State.reset ∨ ∃ s₀, step s₀ = .next s) →
    (s.status.err = true ↔ s.status.errcode ≠ 0#4) ∧
    (s.status.busy = true → s.status.done = false ∧ s.status.err = false ∧ s.status.errcode = 0#4) ∧
    s.status.errcode.toNat ∈ [0, 1, 2, 3, 4]) ∧
  (∀ s : State, ¬ ((s.status.err = true ↔ s.status.errcode ≠ 0#4) ∧
      (s.status.busy = true → s.status.done = false ∧ s.status.err = false ∧ s.status.errcode = 0#4) ∧
      s.status.errcode.toNat ∈ [0, 1, 2, 3, 4]) →
    step s = .fault .impossibleCode)

/-- No step is refused, and from a state with sound STATUS none stops as impossible or stuck.
(93_implementation_defined.md Part 1 (U3, U6, U7); 44_matrix_inverse.md Functions (R204)) -/
def Obligations.NoImpossibleStop : Prop :=
  ∀ s : State,
    (∀ r, step s ≠ .refused r) ∧ step s ≠ .fault .inverseSearchStuck ∧
    (statusOk s.status = true → step s ≠ .fault .impossibleCode)

/-- OVERRUN is cleared only by a host write of 1 or a reset, and only completion or reset ends a command in flight.
(R305) -/
def Obligations.OverrunAndBusyEndOnlyAsStated : Prop :=
  ∀ s t : State, step s = .next t →
    (s.status.overrun = true → t.status.overrun = false →
      resetNext s ∨ ∃ w rest, s.events = writeEvent .status w :: rest ∧ w.getLsbD 8 = true) ∧
    (s.status.busy = true → t.status.busy = false → resetNext s ∨ (engineNext s ∧ t.status.done = true))

/-- Nothing changes the command in flight or its operands.
(20_memory.md D4 (R75); 20_memory.md Access dispatch (R71)) -/
def Obligations.CommandInFlightIsStable : Prop :=
  ∀ s t : State, step s = .next t → s.status.busy = true → t.status.busy = true →
    t.cmd = s.cmd ∧ ∀ r : Reg, isControl r = false → readReg r t = readReg r s

/-- A read-only result register changes only by a successful command that writes it, or a reset.
(70_reset_and_hazards.md J1 (R325); 10_state.md B1 and B5 (R42)) -/
def Obligations.ResultLifetime : Prop :=
  ∀ (s t : State) (r : Reg), step s = .next t → isControl r = false → hostWritable r = false →
    readReg r t ≠ readReg r s →
    resetNext s ∨
      (engineNext s ∧ s.status.busy = true ∧ t.status.errcode = 0#4 ∧
        ∃ i, decode s.cmd = .ok i ∧ r ∈ resultRegs i)

/-- permute: position i of the result is position T[i] of the value.
(R120) -/
def Obligations.PermuteTakesTablePositions : Prop :=
  (∀ (n : Nat) (v : BitVec n) (table : List Nat), (∀ k ∈ table, 1 ≤ k ∧ k ≤ n) →
    ∀ (i : Nat) (h : i < table.length),
      position (permute table.length v table) (i + 1) = position v (table[i]'h)) ∧
  (∀ k ∈ tableIP ++ tableFP ++ tablePC1, 1 ≤ k ∧ k ≤ 64) ∧ (∀ k ∈ tableE ++ tableP, 1 ≤ k ∧ k ≤ 32) ∧
  (∀ k ∈ tablePC2, 1 ≤ k ∧ k ≤ 56)

/-- FP is the inverse of IP, in the tables and on every block.
(40_des_primitives.md Tables (R131, R138)) -/
def Obligations.FinalPermutationInvertsInitial : Prop :=
  (∀ i : Fin 64, tableFP.getD (tableIP.getD i.val 0 - 1) 0 = i.val + 1) ∧
  (∀ x : Block, finalPermutation (initialPermutation x) = x ∧ initialPermutation (finalPermutation x) = x)

/-- The round function read off the tables bit by bit.
(R160) -/
def Obligations.RoundFunctionBitByBit : Prop :=
  ∀ (r : Half) (k : Subkey) (i : Nat), 1 ≤ i → i ≤ 32 → position (roundFunction r k) i = roundBit r k i

/-- Each round key is PC-2 of the key halves rotated by the cumulative shift, and the halves return after round 16.
(41_des_key_schedule.md The key schedule function (R150); 40_des_primitives.md Tables (R136); 95_test_vectors.md S-1) -/
def Obligations.KeyScheduleByCumulativeShift : Prop :=
  (∀ key : Block, (keySchedule key).length = 16 ∧
    ∀ r : Fin 16, (keySchedule key).getD r.val 0#48 =
      permute 48
        (rotl28 (firstHalf 28 (permute 56 key tablePC1)) (cumulativeShift.getD r.val 0) ++
          rotl28 (secondHalf 28 (permute 56 key tablePC1)) (cumulativeShift.getD r.val 0))
        tablePC2) ∧
  (∀ v : BitVec 28, rotl28 v 28 = v)

/-- The parity positions 8, 16, ..., 64 of the key do not affect any subkey.
(41_des_key_schedule.md KS (R151); 40_des_primitives.md Tables (R134)) -/
def Obligations.ParityPositionsHaveNoEffect : Prop :=
  ∀ k₁ k₂ : Block, (∀ i : Nat, 1 ≤ i → i ≤ 64 → i % 8 ≠ 0 → position k₁ i = position k₂ i) →
    keySchedule k₁ = keySchedule k₂

/-- NOP completes and writes no register.
(46_control.md NOP (R250)) -/
def Obligations.NopCompletes : Prop :=
  ∀ s : State, exec .nop s = .next { s with
    status := { busy := false, done := true, err := false, errcode := 0#4, overrun := s.status.overrun } }

/-- KS completes with SK[r] the round key of round r + 1.
(41_des_key_schedule.md KS (R151); 10_state.md B1 and B5 (R35)) -/
def Obligations.KsWritesSubkeyFile : Prop :=
  ∀ s : State, operandsReady keyRegs s = true →
    ∃ t, exec .ks s = .next t ∧ completedOk .ks s t ∧
      ∀ r : Fin 16, subkey r t = (keySchedule (s.keyHi ++ s.keyLo)).getD r.val 0#48 ∧
        readReg (.skHi r) t = ((subkey r t).extractLsb' 32 16).setWidth 32 ∧
        readReg (.skLo r) t = (subkey r t).extractLsb' 0 32

/-- FFUNC completes with F_OUT = f(F_IN, FK).
(42_des_round.md FFUNC (R161)) -/
def Obligations.FfuncComputesRoundFunction : Prop :=
  ∀ s : State, operandsReady ffuncRegs s = true →
    ∃ t, exec .ffunc s = .next t ∧ completedOk .ffunc s t ∧ t.fOut = roundFunction s.fIn (s.fKhi ++ s.fKlo)

/-- ROUND k completes with FL the old FR and FR the old FL xor f(old FR, SK[k]).
(42_des_round.md ROUND (R162)) -/
def Obligations.RoundUpdatesFeistelPair : Prop :=
  ∀ (s : State) (k : BitVec 4), operandsReady (.fl :: .fr :: subkeyRegs k.toFin) s = true →
    ∃ t, exec (.round k) s = .next t ∧ completedOk (.round k) s t ∧
      t.fl = s.fr ∧ t.fr = s.fl ^^^ roundFunction s.fr (subkey k.toFin s)

/-- A round is undone by swapping the halves, running it again, and swapping back.
(R163) -/
def Obligations.RoundIsUndoneBySwapping : Prop :=
  ∀ (s : State) (k : BitVec 4), operandsReady (.fl :: .fr :: subkeyRegs k.toFin) s = true →
    ∃ t u, exec (.round k) s = .next t ∧ exec (.round k) (swapHalves t) = .next u ∧
      (swapHalves u).fl = s.fl ∧ (swapHalves u).fr = s.fr

/-- block.enc and block.dec complete with DOUT the block transform of DIN under the forward and the reverse subkeys.
(43_des_block.md BLOCK (R182); 43_des_block.md The block transform (R181)) -/
def Obligations.BlockTransformsDin : Prop :=
  ∀ s : State, operandsReady (dinRegs ++ skRegs) s = true →
    (∃ t, exec .blockEnc s = .next t ∧ completedOk .blockEnc s t ∧
      t.doutHi ++ t.doutLo = desBlock (s.dinHi ++ s.dinLo) ((List.finRange 16).map fun r => subkey r s)) ∧
    (∃ t, exec .blockDec s = .next t ∧ completedOk .blockDec s t ∧
      t.doutHi ++ t.doutLo = desBlock (s.dinHi ++ s.dinLo) ((List.finRange 16).map fun r => subkey (Fin.rev r) s))

/-- iperm and fperm complete with DOUT's position i the position IP[i], or FP[i], of DIN.
(43_des_block.md IPERM and FPERM (R184, R185); 40_des_primitives.md Tables (R130, R131)) -/
def Obligations.PermutationCommandsMoveBits : Prop :=
  ∀ s : State, operandsReady dinRegs s = true →
    (∃ t, exec .iperm s = .next t ∧ completedOk .iperm s t ∧
      ∀ i : Fin 64, position (doutValue t) (i.val + 1) = position (dinValue s) (tableIP.getD i.val 0)) ∧
    (∃ t, exec .fperm s = .next t ∧ completedOk .fperm s t ∧
      ∀ i : Fin 64, position (doutValue t) (i.val + 1) = position (dinValue s) (tableFP.getD i.val 0))

/-- block.dec undoes block.enc (R183), and block.enc undoes block.dec (derived), for every block and every subkey file.
(43_des_block.md BLOCK (R183); 43_des_block.md The block transform (R181)) -/
def Obligations.BlockRoundTrip : Prop :=
  ∀ s : State, operandsReady (dinRegs ++ skRegs) s = true →
    (∃ t u, exec .blockEnc s = .next t ∧
      exec .blockDec (hostCopy [(.doutHi, .dinHi), (.doutLo, .dinLo)] t) = .next u ∧ doutValue u = dinValue s) ∧
    (∃ t u, exec .blockDec s = .next t ∧
      exec .blockEnc (hostCopy [(.doutHi, .dinHi), (.doutLo, .dinLo)] t) = .next u ∧ doutValue u = dinValue s)

/-- block.enc equals IPERM, sixteen ROUNDs, the swap-back and FPERM; block.dec the same with the rounds reversed.
(R186) -/
def Obligations.BlockEqualsSixteenRounds : Prop :=
  ∀ s : State, operandsReady (dinRegs ++ skRegs) s = true →
    ∀ p ∈ [(sixteenRounds, Instr.blockEnc), (sixteenRounds.reverse, Instr.blockDec)],
      ∃ t₁ t₂ t₃ u, exec .iperm s = .next t₁ ∧
        runCommands p.1 (hostCopy [(.doutHi, .fl), (.doutLo, .fr)] t₁) = .next t₂ ∧
        exec .fperm (hostCopy [(.fr, .dinHi), (.fl, .dinLo)] t₂) = .next t₃ ∧
        exec p.2 s = .next u ∧ doutValue t₃ = doutValue u

/-- A matrix command with N and M in 1..4 and different fails with INVALID_MATRIX_SHAPE and writes nothing else.
(R203) -/
def Obligations.ShapeMismatchFails : Prop :=
  ∀ (n m : BitVec 3) (s : State), dimOk n m = true → n ≠ m →
    ∀ i ∈ matrixCommands n m, exec i s = .next (failedState 2#4 s)

/-- The cofactor expansion is the determinant of the n x n integer matrix.
(44_matrix_inverse.md Functions (R200, R201)) -/
def Obligations.CofactorExpansionIsDeterminant : Prop :=
  ∀ (n : Nat) (a : IntMatrix), matDet n a = Matrix.det (Matrix.of fun i j : Fin n => a i.val j.val)

/-- a · adj(a) = adj(a) · a = det(a) · I.
(44_matrix_inverse.md Functions (R202)) -/
def Obligations.AdjugateTimesMatrix : Prop :=
  ∀ (n : Nat) (a : IntMatrix) (i j : Nat), i < n → j < n →
    (sumBelow n fun k => a i k * matAdjugate n a k j) = (if i = j then matDet n a else 0) ∧
    (sumBelow n fun k => matAdjugate n a i k * a k j) = (if i = j then matDet n a else 0)

/-- modinv26 is the least i in 0..25 with d i = 1 mod 26 if gcd(d, 26) = 1, and the table's values hold.
The model's choice: without an inverse it answers none, where the spec has a search that does not end (log 15, DEDUCED).
(44_matrix_inverse.md Functions (R204); 93_implementation_defined.md U3) -/
def Obligations.LeastModularInverse : Prop :=
  (∀ d : Int, Int.gcd d 26 = 1 →
    ∃ i, modInv26 d = some i ∧ 1 ≤ i ∧ i ≤ 25 ∧ (d * (i : Int)) % 26 = 1 ∧ ∀ j < i, (d * (j : Int)) % 26 ≠ 1) ∧
  (∀ d : Int, Int.gcd d 26 ≠ 1 → modInv26 d = none) ∧
  (∀ d : Int, ∀ p ∈ [((1 : Int), 1), (3, 9), (5, 21), (7, 15), (9, 3), (11, 19), (15, 7), (17, 23), (19, 11), (21, 5),
      (23, 17), (25, 25)], d % 26 = p.1 → modInv26 d = some p.2)

/-- DET completes with the exact determinant: 64 bits lose nothing.
(44_matrix_inverse.md DET (R205); 20_memory.md C3 (R69); 10_state.md B1 and B5 (R39)) -/
def Obligations.DetStoresExactDeterminant : Prop :=
  ∀ (s : State) (n : BitVec 3), dimOk n n = true → operandsReady (maRegs n.toNat) s = true →
    ∃ t, exec (.det n n) s = .next t ∧ completedOk (.det n n) s t ∧ detValue t = matDet n.toNat (maEntry s)

/-- ADJ and ADJ.T complete with the exact adjugate or its transpose in MR, and 0 elsewhere.
(44_matrix_inverse.md ADJ (R206); 20_memory.md C3 (R69); 10_state.md B1 and B5 (R41)) -/
def Obligations.AdjStoresExactAdjugate : Prop :=
  ∀ (s : State) (n : BitVec 3), dimOk n n = true → operandsReady (maRegs n.toNat) s = true →
    (∃ t, exec (.adj n n) s = .next t ∧ completedOk (.adj n n) s t ∧
      ∀ i j : Nat, i < 4 → j < 4 → mrEntry t i j =
        if i < n.toNat ∧ j < n.toNat then matAdjugate n.toNat (maEntry s) i j else 0) ∧
    (∃ t, exec (.adjT n n) s = .next t ∧ completedOk (.adjT n n) s t ∧
      ∀ i j : Nat, i < 4 → j < 4 → mrEntry t i j =
        if i < n.toNat ∧ j < n.toNat then matAdjugate n.toNat (maEntry s) j i else 0)

/-- INV and INV.T complete with DET, DINV and the scaled adjugate mod 26, transposed for INV.T.
(44_matrix_inverse.md INV (R207); 10_state.md B1 and B5 (R39 to R41)) -/
def Obligations.InvWritesInverse : Prop :=
  ∀ (s : State) (n : BitVec 3), dimOk n n = true → operandsReady (maRegs n.toNat) s = true →
    (∀ i, i < n.toNat → maEntry s i i ≠ 0) → Int.gcd (matDet n.toNat (maEntry s)) 26 = 1 →
    (∃ t, exec (.inv n n) s = .next t ∧ completedOk (.inv n n) s t ∧ detValue t = matDet n.toNat (maEntry s) ∧
      1 ≤ t.dinv.toNat ∧ t.dinv.toNat ≤ 25 ∧ (matDet n.toNat (maEntry s) * (t.dinv.toNat : Int)) % 26 = 1 ∧
      ∀ i j : Nat, i < 4 → j < 4 → mrEntry t i j =
        if i < n.toNat ∧ j < n.toNat then ((t.dinv.toNat : Int) * matAdjugate n.toNat (maEntry s) i j) % 26 else 0) ∧
    (∃ t, exec (.invT n n) s = .next t ∧ completedOk (.invT n n) s t ∧ detValue t = matDet n.toNat (maEntry s) ∧
      1 ≤ t.dinv.toNat ∧ t.dinv.toNat ≤ 25 ∧ (matDet n.toNat (maEntry s) * (t.dinv.toNat : Int)) % 26 = 1 ∧
      ∀ i j : Nat, i < 4 → j < 4 → mrEntry t i j =
        if i < n.toNat ∧ j < n.toNat then ((t.dinv.toNat : Int) * matAdjugate n.toNat (maEntry s) j i) % 26 else 0)

/-- INV's MR is the two-sided inverse mod 26, and INV.T's is its transpose.
(R208) -/
def Obligations.InvIsTrueModularInverse : Prop :=
  ∀ (s : State) (n : BitVec 3), dimOk n n = true → operandsReady (maRegs n.toNat) s = true →
    (∀ i, i < n.toNat → maEntry s i i ≠ 0) → Int.gcd (matDet n.toNat (maEntry s)) 26 = 1 →
    ∃ t u, exec (.inv n n) s = .next t ∧ t.status.err = false ∧ exec (.invT n n) s = .next u ∧ u.status.err = false ∧
      ∀ i j : Nat, i < n.toNat → j < n.toNat →
        (sumBelow n.toNat fun k => maEntry s i k * mrEntry t k j) % 26 = (if i = j then 1 else 0) ∧
        (sumBelow n.toNat fun k => mrEntry t i k * maEntry s k j) % 26 = (if i = j then 1 else 0) ∧
        mrEntry u i j = mrEntry t j i

/-- INV rejects a zero diagonal element first and a determinant that shares a factor with 26 second, writing nothing.
(44_matrix_inverse.md INV (R207, R209, R210); 60_exceptions.md G3 (R265)) -/
def Obligations.InvErrorsInOrder : Prop :=
  ∀ (s : State) (n : BitVec 3), dimOk n n = true → operandsReady (maRegs n.toNat) s = true →
    ∀ i ∈ [Instr.inv n n, Instr.invT n n],
      ((∃ k, k < n.toNat ∧ maEntry s k k = 0) → exec i s = .next (failedState 3#4 s)) ∧
      ((∀ k, k < n.toNat → maEntry s k k ≠ 0) → Int.gcd (matDet n.toNat (maEntry s)) 26 ≠ 1 →
        exec i s = .next (failedState 4#4 s))

/-- MVM and MVM.S complete with the exact product of MA, or MR, and VIN reduced mod 26, and 0 elsewhere.
(45_hill.md MVM (R232); 45_hill.md Operand selection (R230); 10_state.md B1 and B5 (R38)) -/
def Obligations.MvmMultipliesColumnVector : Prop :=
  ∀ (s : State) (n : BitVec 3), dimOk n n = true →
    (operandsReady (maRegs n.toNat ++ vinRegs n.toNat) s = true →
      ∃ t, exec (.mvm n n) s = .next t ∧ completedOk (.mvm n n) s t ∧ ∀ i : Nat, i < 4 → voutEntry t i =
        if i < n.toNat then (sumBelow n.toNat fun j => maEntry s i j * vinEntry s j) % 26 else 0) ∧
    (operandsReady (mrRegs n.toNat ++ vinRegs n.toNat) s = true →
      ∃ t, exec (.mvmS n n) s = .next t ∧ completedOk (.mvmS n n) s t ∧ ∀ i : Nat, i < 4 → voutEntry t i =
        if i < n.toNat then (sumBelow n.toNat fun j => mrEntry s i j * vinEntry s j) % 26 else 0)

/-- VMM and VMM.S complete with the exact product of VIN and MA, or MR, reduced mod 26, and 0 elsewhere.
(45_hill.md VMM (R233); 45_hill.md Operand selection (R230); 10_state.md B1 and B5 (R38)) -/
def Obligations.VmmMultipliesRowVector : Prop :=
  ∀ (s : State) (n : BitVec 3), dimOk n n = true →
    (operandsReady (maRegs n.toNat ++ vinRegs n.toNat) s = true →
      ∃ t, exec (.vmm n n) s = .next t ∧ completedOk (.vmm n n) s t ∧ ∀ j : Nat, j < 4 → voutEntry t j =
        if j < n.toNat then (sumBelow n.toNat fun i => vinEntry s i * maEntry s i j) % 26 else 0) ∧
    (operandsReady (mrRegs n.toNat ++ vinRegs n.toNat) s = true →
      ∃ t, exec (.vmmS n n) s = .next t ∧ completedOk (.vmmS n n) s t ∧ ∀ j : Nat, j < 4 → voutEntry t j =
        if j < n.toNat then (sumBelow n.toNat fun i => vinEntry s i * mrEntry s i j) % 26 else 0)

/-- The Hill products are linear mod 26 and depend only on the residues of their operands.
(R234) -/
def Obligations.HillProductIsLinear : Prop :=
  ∀ (n : Nat) (x y : IntMatrix) (v w : Nat → Int) (i : Nat),
    matVec26 n x (fun k => v k + w k) i = (matVec26 n x v i + matVec26 n x w i) % 26 ∧
    vecMat26 n x (fun k => v k + w k) i = (vecMat26 n x v i + vecMat26 n x w i) % 26 ∧
    ((∀ k, k < n → x i k % 26 = y i k % 26 ∧ v k % 26 = w k % 26) → matVec26 n x v i = matVec26 n y w i) ∧
    ((∀ k, k < n → x k i % 26 = y k i % 26 ∧ v k % 26 = w k % 26) → vecMat26 n x v i = vecMat26 n y w i)

/-- Hill decryption returns the vector, by INV and MVM.S and by INV.T and VMM.S.
(45_hill.md Properties (R236); 44_matrix_inverse.md INV (R208)) -/
def Obligations.HillRoundTrip : Prop :=
  ∀ (s : State) (n : BitVec 3), dimOk n n = true →
    operandsReady (maRegs n.toNat ++ vinRegs n.toNat) s = true →
    (∀ i, i < n.toNat → maEntry s i i ≠ 0) → Int.gcd (matDet n.toNat (maEntry s)) 26 = 1 →
    (∀ j, j < n.toNat → 0 ≤ vinEntry s j ∧ vinEntry s j ≤ 25) →
    ∀ p ∈ [(Instr.inv n n, Instr.mvmS n n), (Instr.invT n n, Instr.vmmS n n)],
      ∃ t₁ t₂ t₃, exec (.mvm n n) s = .next t₁ ∧ exec p.1 t₁ = .next t₂ ∧
        exec p.2 (hostCopy ((List.finRange 4).map fun j => (Reg.vout j, Reg.vin j)) t₂) = .next t₃ ∧
        ∀ j : Nat, j < n.toNat → voutEntry t₃ j = vinEntry s j
end

