-- ==== Sys2Proof/Laws/Bits.lean ====
section
/-! SUPPORT. The one fact about `permute`: which bit each position takes (40_des_primitives.md R120). -/

namespace Sys2Proof.Machine

/-- The number whose bits, most significant first, are the chosen positions of `v`. -/
theorem permuteFold_testBit {n : Nat} (v : BitVec n) (table : List Nat) (acc i : Nat) :
    (table.foldl (fun acc k => 2 * acc + (position v k).toNat) acc).testBit i =
      if h : i < table.length then position v (table[table.length - 1 - i]'(by omega))
      else acc.testBit (i - table.length) := by
  induction table generalizing acc i with
  | nil => simp
  | cons k ks ih =>
    rw [List.foldl_cons, ih]
    by_cases h : i < ks.length
    · have h1 : i < (k :: ks).length := by simp; omega
      have h2 : (k :: ks).length - 1 - i = (ks.length - 1 - i) + 1 := by simp; omega
      rw [dif_pos h, dif_pos h1]
      simp only [h2, List.getElem_cons_succ]
    · rw [dif_neg h]
      by_cases h3 : i = ks.length
      · subst h3
        have h1 : ks.length < (k :: ks).length := by simp
        rw [dif_pos h1]
        simp only [List.length_cons, Nat.add_sub_cancel, Nat.sub_self, List.getElem_cons_zero]
        cases position v k <;> simp [Nat.testBit_zero, Nat.add_mod]
      · have h1 : ¬ i < (k :: ks).length := by simp; omega
        have h2 : i - ks.length = (i - (k :: ks).length) + 1 := by simp; omega
        rw [dif_neg h1, h2, Nat.testBit_succ]
        congr 1
        cases position v k <;> simp
        omega

end Sys2Proof.Machine
end

