-- ==== Sys2Proof/Laws/State.lean ====
section
/-! SUPPORT. One lemma per field per named update of State, each true by unfolding, so that no later proof
unfolds a record update. -/

namespace Sys2Proof.Machine

@[simp] theorem completeWith_ie (c : BitVec 4) (s : State) : (completeWith c s).ie = s.ie := rfl
@[simp] theorem completeWith_status (c : BitVec 4) (s : State) : (completeWith c s).status = statusComplete c s.status := rfl
@[simp] theorem completeWith_cmd (c : BitVec 4) (s : State) : (completeWith c s).cmd = s.cmd := rfl
@[simp] theorem completeWith_keyHi (c : BitVec 4) (s : State) : (completeWith c s).keyHi = s.keyHi := rfl
@[simp] theorem completeWith_keyLo (c : BitVec 4) (s : State) : (completeWith c s).keyLo = s.keyLo := rfl
@[simp] theorem completeWith_dinHi (c : BitVec 4) (s : State) : (completeWith c s).dinHi = s.dinHi := rfl
@[simp] theorem completeWith_dinLo (c : BitVec 4) (s : State) : (completeWith c s).dinLo = s.dinLo := rfl
@[simp] theorem completeWith_doutHi (c : BitVec 4) (s : State) : (completeWith c s).doutHi = s.doutHi := rfl
@[simp] theorem completeWith_doutLo (c : BitVec 4) (s : State) : (completeWith c s).doutLo = s.doutLo := rfl
@[simp] theorem completeWith_fl (c : BitVec 4) (s : State) : (completeWith c s).fl = s.fl := rfl
@[simp] theorem completeWith_fr (c : BitVec 4) (s : State) : (completeWith c s).fr = s.fr := rfl
@[simp] theorem completeWith_fIn (c : BitVec 4) (s : State) : (completeWith c s).fIn = s.fIn := rfl
@[simp] theorem completeWith_fKhi (c : BitVec 4) (s : State) : (completeWith c s).fKhi = s.fKhi := rfl
@[simp] theorem completeWith_fKlo (c : BitVec 4) (s : State) : (completeWith c s).fKlo = s.fKlo := rfl
@[simp] theorem completeWith_fOut (c : BitVec 4) (s : State) : (completeWith c s).fOut = s.fOut := rfl
@[simp] theorem completeWith_skHi (c : BitVec 4) (s : State) : (completeWith c s).skHi = s.skHi := rfl
@[simp] theorem completeWith_skLo (c : BitVec 4) (s : State) : (completeWith c s).skLo = s.skLo := rfl
@[simp] theorem completeWith_ma (c : BitVec 4) (s : State) : (completeWith c s).ma = s.ma := rfl
@[simp] theorem completeWith_vin (c : BitVec 4) (s : State) : (completeWith c s).vin = s.vin := rfl
@[simp] theorem completeWith_vout (c : BitVec 4) (s : State) : (completeWith c s).vout = s.vout := rfl
@[simp] theorem completeWith_detLo (c : BitVec 4) (s : State) : (completeWith c s).detLo = s.detLo := rfl
@[simp] theorem completeWith_detHi (c : BitVec 4) (s : State) : (completeWith c s).detHi = s.detHi := rfl
@[simp] theorem completeWith_dinv (c : BitVec 4) (s : State) : (completeWith c s).dinv = s.dinv := rfl
@[simp] theorem completeWith_mr (c : BitVec 4) (s : State) : (completeWith c s).mr = s.mr := rfl
@[simp] theorem completeWith_written (c : BitVec 4) (s : State) : (completeWith c s).written = s.written := rfl
@[simp] theorem completeWith_rstN (c : BitVec 4) (s : State) : (completeWith c s).rstN = s.rstN := rfl
@[simp] theorem completeWith_prdata (c : BitVec 4) (s : State) : (completeWith c s).prdata = s.prdata := rfl
@[simp] theorem completeWith_cfg (c : BitVec 4) (s : State) : (completeWith c s).cfg = s.cfg := rfl
@[simp] theorem completeWith_drawCount (c : BitVec 4) (s : State) : (completeWith c s).drawCount = s.drawCount := rfl
@[simp] theorem completeWith_events (c : BitVec 4) (s : State) : (completeWith c s).events = s.events := rfl

@[simp] theorem accept_ie (w : Word) (s : State) : (accept w s).ie = s.ie := rfl
@[simp] theorem accept_status (w : Word) (s : State) : (accept w s).status = statusAccept s.status := rfl
@[simp] theorem accept_cmd (w : Word) (s : State) : (accept w s).cmd = w := rfl
@[simp] theorem accept_keyHi (w : Word) (s : State) : (accept w s).keyHi = s.keyHi := rfl
@[simp] theorem accept_keyLo (w : Word) (s : State) : (accept w s).keyLo = s.keyLo := rfl
@[simp] theorem accept_dinHi (w : Word) (s : State) : (accept w s).dinHi = s.dinHi := rfl
@[simp] theorem accept_dinLo (w : Word) (s : State) : (accept w s).dinLo = s.dinLo := rfl
@[simp] theorem accept_doutHi (w : Word) (s : State) : (accept w s).doutHi = s.doutHi := rfl
@[simp] theorem accept_doutLo (w : Word) (s : State) : (accept w s).doutLo = s.doutLo := rfl
@[simp] theorem accept_fl (w : Word) (s : State) : (accept w s).fl = s.fl := rfl
@[simp] theorem accept_fr (w : Word) (s : State) : (accept w s).fr = s.fr := rfl
@[simp] theorem accept_fIn (w : Word) (s : State) : (accept w s).fIn = s.fIn := rfl
@[simp] theorem accept_fKhi (w : Word) (s : State) : (accept w s).fKhi = s.fKhi := rfl
@[simp] theorem accept_fKlo (w : Word) (s : State) : (accept w s).fKlo = s.fKlo := rfl
@[simp] theorem accept_fOut (w : Word) (s : State) : (accept w s).fOut = s.fOut := rfl
@[simp] theorem accept_skHi (w : Word) (s : State) : (accept w s).skHi = s.skHi := rfl
@[simp] theorem accept_skLo (w : Word) (s : State) : (accept w s).skLo = s.skLo := rfl
@[simp] theorem accept_ma (w : Word) (s : State) : (accept w s).ma = s.ma := rfl
@[simp] theorem accept_vin (w : Word) (s : State) : (accept w s).vin = s.vin := rfl
@[simp] theorem accept_vout (w : Word) (s : State) : (accept w s).vout = s.vout := rfl
@[simp] theorem accept_detLo (w : Word) (s : State) : (accept w s).detLo = s.detLo := rfl
@[simp] theorem accept_detHi (w : Word) (s : State) : (accept w s).detHi = s.detHi := rfl
@[simp] theorem accept_dinv (w : Word) (s : State) : (accept w s).dinv = s.dinv := rfl
@[simp] theorem accept_mr (w : Word) (s : State) : (accept w s).mr = s.mr := rfl
@[simp] theorem accept_written (w : Word) (s : State) : (accept w s).written = s.written := rfl
@[simp] theorem accept_rstN (w : Word) (s : State) : (accept w s).rstN = s.rstN := rfl
@[simp] theorem accept_prdata (w : Word) (s : State) : (accept w s).prdata = s.prdata := rfl
@[simp] theorem accept_cfg (w : Word) (s : State) : (accept w s).cfg = s.cfg := rfl
@[simp] theorem accept_drawCount (w : Word) (s : State) : (accept w s).drawCount = s.drawCount := rfl
@[simp] theorem accept_events (w : Word) (s : State) : (accept w s).events = s.events := rfl

@[simp] theorem dropWrite_ie (s : State) : (dropWrite s).ie = s.ie := rfl
@[simp] theorem dropWrite_status (s : State) : (dropWrite s).status = statusOverrun s.status := rfl
@[simp] theorem dropWrite_cmd (s : State) : (dropWrite s).cmd = s.cmd := rfl
@[simp] theorem dropWrite_keyHi (s : State) : (dropWrite s).keyHi = s.keyHi := rfl
@[simp] theorem dropWrite_keyLo (s : State) : (dropWrite s).keyLo = s.keyLo := rfl
@[simp] theorem dropWrite_dinHi (s : State) : (dropWrite s).dinHi = s.dinHi := rfl
@[simp] theorem dropWrite_dinLo (s : State) : (dropWrite s).dinLo = s.dinLo := rfl
@[simp] theorem dropWrite_doutHi (s : State) : (dropWrite s).doutHi = s.doutHi := rfl
@[simp] theorem dropWrite_doutLo (s : State) : (dropWrite s).doutLo = s.doutLo := rfl
@[simp] theorem dropWrite_fl (s : State) : (dropWrite s).fl = s.fl := rfl
@[simp] theorem dropWrite_fr (s : State) : (dropWrite s).fr = s.fr := rfl
@[simp] theorem dropWrite_fIn (s : State) : (dropWrite s).fIn = s.fIn := rfl
@[simp] theorem dropWrite_fKhi (s : State) : (dropWrite s).fKhi = s.fKhi := rfl
@[simp] theorem dropWrite_fKlo (s : State) : (dropWrite s).fKlo = s.fKlo := rfl
@[simp] theorem dropWrite_fOut (s : State) : (dropWrite s).fOut = s.fOut := rfl
@[simp] theorem dropWrite_skHi (s : State) : (dropWrite s).skHi = s.skHi := rfl
@[simp] theorem dropWrite_skLo (s : State) : (dropWrite s).skLo = s.skLo := rfl
@[simp] theorem dropWrite_ma (s : State) : (dropWrite s).ma = s.ma := rfl
@[simp] theorem dropWrite_vin (s : State) : (dropWrite s).vin = s.vin := rfl
@[simp] theorem dropWrite_vout (s : State) : (dropWrite s).vout = s.vout := rfl
@[simp] theorem dropWrite_detLo (s : State) : (dropWrite s).detLo = s.detLo := rfl
@[simp] theorem dropWrite_detHi (s : State) : (dropWrite s).detHi = s.detHi := rfl
@[simp] theorem dropWrite_dinv (s : State) : (dropWrite s).dinv = s.dinv := rfl
@[simp] theorem dropWrite_mr (s : State) : (dropWrite s).mr = s.mr := rfl
@[simp] theorem dropWrite_written (s : State) : (dropWrite s).written = s.written := rfl
@[simp] theorem dropWrite_rstN (s : State) : (dropWrite s).rstN = s.rstN := rfl
@[simp] theorem dropWrite_prdata (s : State) : (dropWrite s).prdata = s.prdata := rfl
@[simp] theorem dropWrite_cfg (s : State) : (dropWrite s).cfg = s.cfg := rfl
@[simp] theorem dropWrite_drawCount (s : State) : (dropWrite s).drawCount = s.drawCount := rfl
@[simp] theorem dropWrite_events (s : State) : (dropWrite s).events = s.events := rfl

@[simp] theorem markWritten_ie (rs : List Reg) (s : State) : (markWritten rs s).ie = s.ie := rfl
@[simp] theorem markWritten_status (rs : List Reg) (s : State) : (markWritten rs s).status = s.status := rfl
@[simp] theorem markWritten_cmd (rs : List Reg) (s : State) : (markWritten rs s).cmd = s.cmd := rfl
@[simp] theorem markWritten_keyHi (rs : List Reg) (s : State) : (markWritten rs s).keyHi = s.keyHi := rfl
@[simp] theorem markWritten_keyLo (rs : List Reg) (s : State) : (markWritten rs s).keyLo = s.keyLo := rfl
@[simp] theorem markWritten_dinHi (rs : List Reg) (s : State) : (markWritten rs s).dinHi = s.dinHi := rfl
@[simp] theorem markWritten_dinLo (rs : List Reg) (s : State) : (markWritten rs s).dinLo = s.dinLo := rfl
@[simp] theorem markWritten_doutHi (rs : List Reg) (s : State) : (markWritten rs s).doutHi = s.doutHi := rfl
@[simp] theorem markWritten_doutLo (rs : List Reg) (s : State) : (markWritten rs s).doutLo = s.doutLo := rfl
@[simp] theorem markWritten_fl (rs : List Reg) (s : State) : (markWritten rs s).fl = s.fl := rfl
@[simp] theorem markWritten_fr (rs : List Reg) (s : State) : (markWritten rs s).fr = s.fr := rfl
@[simp] theorem markWritten_fIn (rs : List Reg) (s : State) : (markWritten rs s).fIn = s.fIn := rfl
@[simp] theorem markWritten_fKhi (rs : List Reg) (s : State) : (markWritten rs s).fKhi = s.fKhi := rfl
@[simp] theorem markWritten_fKlo (rs : List Reg) (s : State) : (markWritten rs s).fKlo = s.fKlo := rfl
@[simp] theorem markWritten_fOut (rs : List Reg) (s : State) : (markWritten rs s).fOut = s.fOut := rfl
@[simp] theorem markWritten_skHi (rs : List Reg) (s : State) : (markWritten rs s).skHi = s.skHi := rfl
@[simp] theorem markWritten_skLo (rs : List Reg) (s : State) : (markWritten rs s).skLo = s.skLo := rfl
@[simp] theorem markWritten_ma (rs : List Reg) (s : State) : (markWritten rs s).ma = s.ma := rfl
@[simp] theorem markWritten_vin (rs : List Reg) (s : State) : (markWritten rs s).vin = s.vin := rfl
@[simp] theorem markWritten_vout (rs : List Reg) (s : State) : (markWritten rs s).vout = s.vout := rfl
@[simp] theorem markWritten_detLo (rs : List Reg) (s : State) : (markWritten rs s).detLo = s.detLo := rfl
@[simp] theorem markWritten_detHi (rs : List Reg) (s : State) : (markWritten rs s).detHi = s.detHi := rfl
@[simp] theorem markWritten_dinv (rs : List Reg) (s : State) : (markWritten rs s).dinv = s.dinv := rfl
@[simp] theorem markWritten_mr (rs : List Reg) (s : State) : (markWritten rs s).mr = s.mr := rfl
@[simp] theorem markWritten_written (rs : List Reg) (s : State) : (markWritten rs s).written = rs.foldr (fun r l => l.insert r) s.written := rfl
@[simp] theorem markWritten_rstN (rs : List Reg) (s : State) : (markWritten rs s).rstN = s.rstN := rfl
@[simp] theorem markWritten_prdata (rs : List Reg) (s : State) : (markWritten rs s).prdata = s.prdata := rfl
@[simp] theorem markWritten_cfg (rs : List Reg) (s : State) : (markWritten rs s).cfg = s.cfg := rfl
@[simp] theorem markWritten_drawCount (rs : List Reg) (s : State) : (markWritten rs s).drawCount = s.drawCount := rfl
@[simp] theorem markWritten_events (rs : List Reg) (s : State) : (markWritten rs s).events = s.events := rfl

@[simp] theorem writeSubkeys_ie (ks : List Subkey) (s : State) : (writeSubkeys ks s).ie = s.ie := by simp only [writeSubkeys, markWritten_ie]
@[simp] theorem writeSubkeys_status (ks : List Subkey) (s : State) : (writeSubkeys ks s).status = s.status := by simp only [writeSubkeys, markWritten_status]
@[simp] theorem writeSubkeys_cmd (ks : List Subkey) (s : State) : (writeSubkeys ks s).cmd = s.cmd := by simp only [writeSubkeys, markWritten_cmd]
@[simp] theorem writeSubkeys_keyHi (ks : List Subkey) (s : State) : (writeSubkeys ks s).keyHi = s.keyHi := by simp only [writeSubkeys, markWritten_keyHi]
@[simp] theorem writeSubkeys_keyLo (ks : List Subkey) (s : State) : (writeSubkeys ks s).keyLo = s.keyLo := by simp only [writeSubkeys, markWritten_keyLo]
@[simp] theorem writeSubkeys_dinHi (ks : List Subkey) (s : State) : (writeSubkeys ks s).dinHi = s.dinHi := by simp only [writeSubkeys, markWritten_dinHi]
@[simp] theorem writeSubkeys_dinLo (ks : List Subkey) (s : State) : (writeSubkeys ks s).dinLo = s.dinLo := by simp only [writeSubkeys, markWritten_dinLo]
@[simp] theorem writeSubkeys_doutHi (ks : List Subkey) (s : State) : (writeSubkeys ks s).doutHi = s.doutHi := by simp only [writeSubkeys, markWritten_doutHi]
@[simp] theorem writeSubkeys_doutLo (ks : List Subkey) (s : State) : (writeSubkeys ks s).doutLo = s.doutLo := by simp only [writeSubkeys, markWritten_doutLo]
@[simp] theorem writeSubkeys_fl (ks : List Subkey) (s : State) : (writeSubkeys ks s).fl = s.fl := by simp only [writeSubkeys, markWritten_fl]
@[simp] theorem writeSubkeys_fr (ks : List Subkey) (s : State) : (writeSubkeys ks s).fr = s.fr := by simp only [writeSubkeys, markWritten_fr]
@[simp] theorem writeSubkeys_fIn (ks : List Subkey) (s : State) : (writeSubkeys ks s).fIn = s.fIn := by simp only [writeSubkeys, markWritten_fIn]
@[simp] theorem writeSubkeys_fKhi (ks : List Subkey) (s : State) : (writeSubkeys ks s).fKhi = s.fKhi := by simp only [writeSubkeys, markWritten_fKhi]
@[simp] theorem writeSubkeys_fKlo (ks : List Subkey) (s : State) : (writeSubkeys ks s).fKlo = s.fKlo := by simp only [writeSubkeys, markWritten_fKlo]
@[simp] theorem writeSubkeys_fOut (ks : List Subkey) (s : State) : (writeSubkeys ks s).fOut = s.fOut := by simp only [writeSubkeys, markWritten_fOut]
@[simp] theorem writeSubkeys_skHi (ks : List Subkey) (s : State) : (writeSubkeys ks s).skHi = Vector.ofFn fun r : Fin 16 => (ks.getD r.val 0#48).extractLsb' 32 16 := by simp only [writeSubkeys, markWritten_skHi]
@[simp] theorem writeSubkeys_skLo (ks : List Subkey) (s : State) : (writeSubkeys ks s).skLo = Vector.ofFn fun r : Fin 16 => (ks.getD r.val 0#48).extractLsb' 0 32 := by simp only [writeSubkeys, markWritten_skLo]
@[simp] theorem writeSubkeys_ma (ks : List Subkey) (s : State) : (writeSubkeys ks s).ma = s.ma := by simp only [writeSubkeys, markWritten_ma]
@[simp] theorem writeSubkeys_vin (ks : List Subkey) (s : State) : (writeSubkeys ks s).vin = s.vin := by simp only [writeSubkeys, markWritten_vin]
@[simp] theorem writeSubkeys_vout (ks : List Subkey) (s : State) : (writeSubkeys ks s).vout = s.vout := by simp only [writeSubkeys, markWritten_vout]
@[simp] theorem writeSubkeys_detLo (ks : List Subkey) (s : State) : (writeSubkeys ks s).detLo = s.detLo := by simp only [writeSubkeys, markWritten_detLo]
@[simp] theorem writeSubkeys_detHi (ks : List Subkey) (s : State) : (writeSubkeys ks s).detHi = s.detHi := by simp only [writeSubkeys, markWritten_detHi]
@[simp] theorem writeSubkeys_dinv (ks : List Subkey) (s : State) : (writeSubkeys ks s).dinv = s.dinv := by simp only [writeSubkeys, markWritten_dinv]
@[simp] theorem writeSubkeys_mr (ks : List Subkey) (s : State) : (writeSubkeys ks s).mr = s.mr := by simp only [writeSubkeys, markWritten_mr]
@[simp] theorem writeSubkeys_rstN (ks : List Subkey) (s : State) : (writeSubkeys ks s).rstN = s.rstN := by simp only [writeSubkeys, markWritten_rstN]
@[simp] theorem writeSubkeys_prdata (ks : List Subkey) (s : State) : (writeSubkeys ks s).prdata = s.prdata := by simp only [writeSubkeys, markWritten_prdata]
@[simp] theorem writeSubkeys_cfg (ks : List Subkey) (s : State) : (writeSubkeys ks s).cfg = s.cfg := by simp only [writeSubkeys, markWritten_cfg]
@[simp] theorem writeSubkeys_drawCount (ks : List Subkey) (s : State) : (writeSubkeys ks s).drawCount = s.drawCount := by simp only [writeSubkeys, markWritten_drawCount]
@[simp] theorem writeSubkeys_events (ks : List Subkey) (s : State) : (writeSubkeys ks s).events = s.events := by simp only [writeSubkeys, markWritten_events]

@[simp] theorem writeFOut_ie (v : Half) (s : State) : (writeFOut v s).ie = s.ie := rfl
@[simp] theorem writeFOut_status (v : Half) (s : State) : (writeFOut v s).status = s.status := rfl
@[simp] theorem writeFOut_cmd (v : Half) (s : State) : (writeFOut v s).cmd = s.cmd := rfl
@[simp] theorem writeFOut_keyHi (v : Half) (s : State) : (writeFOut v s).keyHi = s.keyHi := rfl
@[simp] theorem writeFOut_keyLo (v : Half) (s : State) : (writeFOut v s).keyLo = s.keyLo := rfl
@[simp] theorem writeFOut_dinHi (v : Half) (s : State) : (writeFOut v s).dinHi = s.dinHi := rfl
@[simp] theorem writeFOut_dinLo (v : Half) (s : State) : (writeFOut v s).dinLo = s.dinLo := rfl
@[simp] theorem writeFOut_doutHi (v : Half) (s : State) : (writeFOut v s).doutHi = s.doutHi := rfl
@[simp] theorem writeFOut_doutLo (v : Half) (s : State) : (writeFOut v s).doutLo = s.doutLo := rfl
@[simp] theorem writeFOut_fl (v : Half) (s : State) : (writeFOut v s).fl = s.fl := rfl
@[simp] theorem writeFOut_fr (v : Half) (s : State) : (writeFOut v s).fr = s.fr := rfl
@[simp] theorem writeFOut_fIn (v : Half) (s : State) : (writeFOut v s).fIn = s.fIn := rfl
@[simp] theorem writeFOut_fKhi (v : Half) (s : State) : (writeFOut v s).fKhi = s.fKhi := rfl
@[simp] theorem writeFOut_fKlo (v : Half) (s : State) : (writeFOut v s).fKlo = s.fKlo := rfl
@[simp] theorem writeFOut_fOut (v : Half) (s : State) : (writeFOut v s).fOut = v := rfl
@[simp] theorem writeFOut_skHi (v : Half) (s : State) : (writeFOut v s).skHi = s.skHi := rfl
@[simp] theorem writeFOut_skLo (v : Half) (s : State) : (writeFOut v s).skLo = s.skLo := rfl
@[simp] theorem writeFOut_ma (v : Half) (s : State) : (writeFOut v s).ma = s.ma := rfl
@[simp] theorem writeFOut_vin (v : Half) (s : State) : (writeFOut v s).vin = s.vin := rfl
@[simp] theorem writeFOut_vout (v : Half) (s : State) : (writeFOut v s).vout = s.vout := rfl
@[simp] theorem writeFOut_detLo (v : Half) (s : State) : (writeFOut v s).detLo = s.detLo := rfl
@[simp] theorem writeFOut_detHi (v : Half) (s : State) : (writeFOut v s).detHi = s.detHi := rfl
@[simp] theorem writeFOut_dinv (v : Half) (s : State) : (writeFOut v s).dinv = s.dinv := rfl
@[simp] theorem writeFOut_mr (v : Half) (s : State) : (writeFOut v s).mr = s.mr := rfl
@[simp] theorem writeFOut_rstN (v : Half) (s : State) : (writeFOut v s).rstN = s.rstN := rfl
@[simp] theorem writeFOut_prdata (v : Half) (s : State) : (writeFOut v s).prdata = s.prdata := rfl
@[simp] theorem writeFOut_cfg (v : Half) (s : State) : (writeFOut v s).cfg = s.cfg := rfl
@[simp] theorem writeFOut_drawCount (v : Half) (s : State) : (writeFOut v s).drawCount = s.drawCount := rfl
@[simp] theorem writeFOut_events (v : Half) (s : State) : (writeFOut v s).events = s.events := rfl

@[simp] theorem writeFeistel_ie (l r : Half) (s : State) : (writeFeistel l r s).ie = s.ie := rfl
@[simp] theorem writeFeistel_status (l r : Half) (s : State) : (writeFeistel l r s).status = s.status := rfl
@[simp] theorem writeFeistel_cmd (l r : Half) (s : State) : (writeFeistel l r s).cmd = s.cmd := rfl
@[simp] theorem writeFeistel_keyHi (l r : Half) (s : State) : (writeFeistel l r s).keyHi = s.keyHi := rfl
@[simp] theorem writeFeistel_keyLo (l r : Half) (s : State) : (writeFeistel l r s).keyLo = s.keyLo := rfl
@[simp] theorem writeFeistel_dinHi (l r : Half) (s : State) : (writeFeistel l r s).dinHi = s.dinHi := rfl
@[simp] theorem writeFeistel_dinLo (l r : Half) (s : State) : (writeFeistel l r s).dinLo = s.dinLo := rfl
@[simp] theorem writeFeistel_doutHi (l r : Half) (s : State) : (writeFeistel l r s).doutHi = s.doutHi := rfl
@[simp] theorem writeFeistel_doutLo (l r : Half) (s : State) : (writeFeistel l r s).doutLo = s.doutLo := rfl
@[simp] theorem writeFeistel_fl (l r : Half) (s : State) : (writeFeistel l r s).fl = l := rfl
@[simp] theorem writeFeistel_fr (l r : Half) (s : State) : (writeFeistel l r s).fr = r := rfl
@[simp] theorem writeFeistel_fIn (l r : Half) (s : State) : (writeFeistel l r s).fIn = s.fIn := rfl
@[simp] theorem writeFeistel_fKhi (l r : Half) (s : State) : (writeFeistel l r s).fKhi = s.fKhi := rfl
@[simp] theorem writeFeistel_fKlo (l r : Half) (s : State) : (writeFeistel l r s).fKlo = s.fKlo := rfl
@[simp] theorem writeFeistel_fOut (l r : Half) (s : State) : (writeFeistel l r s).fOut = s.fOut := rfl
@[simp] theorem writeFeistel_skHi (l r : Half) (s : State) : (writeFeistel l r s).skHi = s.skHi := rfl
@[simp] theorem writeFeistel_skLo (l r : Half) (s : State) : (writeFeistel l r s).skLo = s.skLo := rfl
@[simp] theorem writeFeistel_ma (l r : Half) (s : State) : (writeFeistel l r s).ma = s.ma := rfl
@[simp] theorem writeFeistel_vin (l r : Half) (s : State) : (writeFeistel l r s).vin = s.vin := rfl
@[simp] theorem writeFeistel_vout (l r : Half) (s : State) : (writeFeistel l r s).vout = s.vout := rfl
@[simp] theorem writeFeistel_detLo (l r : Half) (s : State) : (writeFeistel l r s).detLo = s.detLo := rfl
@[simp] theorem writeFeistel_detHi (l r : Half) (s : State) : (writeFeistel l r s).detHi = s.detHi := rfl
@[simp] theorem writeFeistel_dinv (l r : Half) (s : State) : (writeFeistel l r s).dinv = s.dinv := rfl
@[simp] theorem writeFeistel_mr (l r : Half) (s : State) : (writeFeistel l r s).mr = s.mr := rfl
@[simp] theorem writeFeistel_rstN (l r : Half) (s : State) : (writeFeistel l r s).rstN = s.rstN := rfl
@[simp] theorem writeFeistel_prdata (l r : Half) (s : State) : (writeFeistel l r s).prdata = s.prdata := rfl
@[simp] theorem writeFeistel_cfg (l r : Half) (s : State) : (writeFeistel l r s).cfg = s.cfg := rfl
@[simp] theorem writeFeistel_drawCount (l r : Half) (s : State) : (writeFeistel l r s).drawCount = s.drawCount := rfl
@[simp] theorem writeFeistel_events (l r : Half) (s : State) : (writeFeistel l r s).events = s.events := rfl

@[simp] theorem writeDout_ie (v : Block) (s : State) : (writeDout v s).ie = s.ie := rfl
@[simp] theorem writeDout_status (v : Block) (s : State) : (writeDout v s).status = s.status := rfl
@[simp] theorem writeDout_cmd (v : Block) (s : State) : (writeDout v s).cmd = s.cmd := rfl
@[simp] theorem writeDout_keyHi (v : Block) (s : State) : (writeDout v s).keyHi = s.keyHi := rfl
@[simp] theorem writeDout_keyLo (v : Block) (s : State) : (writeDout v s).keyLo = s.keyLo := rfl
@[simp] theorem writeDout_dinHi (v : Block) (s : State) : (writeDout v s).dinHi = s.dinHi := rfl
@[simp] theorem writeDout_dinLo (v : Block) (s : State) : (writeDout v s).dinLo = s.dinLo := rfl
@[simp] theorem writeDout_doutHi (v : Block) (s : State) : (writeDout v s).doutHi = v.extractLsb' 32 32 := rfl
@[simp] theorem writeDout_doutLo (v : Block) (s : State) : (writeDout v s).doutLo = v.extractLsb' 0 32 := rfl
@[simp] theorem writeDout_fl (v : Block) (s : State) : (writeDout v s).fl = s.fl := rfl
@[simp] theorem writeDout_fr (v : Block) (s : State) : (writeDout v s).fr = s.fr := rfl
@[simp] theorem writeDout_fIn (v : Block) (s : State) : (writeDout v s).fIn = s.fIn := rfl
@[simp] theorem writeDout_fKhi (v : Block) (s : State) : (writeDout v s).fKhi = s.fKhi := rfl
@[simp] theorem writeDout_fKlo (v : Block) (s : State) : (writeDout v s).fKlo = s.fKlo := rfl
@[simp] theorem writeDout_fOut (v : Block) (s : State) : (writeDout v s).fOut = s.fOut := rfl
@[simp] theorem writeDout_skHi (v : Block) (s : State) : (writeDout v s).skHi = s.skHi := rfl
@[simp] theorem writeDout_skLo (v : Block) (s : State) : (writeDout v s).skLo = s.skLo := rfl
@[simp] theorem writeDout_ma (v : Block) (s : State) : (writeDout v s).ma = s.ma := rfl
@[simp] theorem writeDout_vin (v : Block) (s : State) : (writeDout v s).vin = s.vin := rfl
@[simp] theorem writeDout_vout (v : Block) (s : State) : (writeDout v s).vout = s.vout := rfl
@[simp] theorem writeDout_detLo (v : Block) (s : State) : (writeDout v s).detLo = s.detLo := rfl
@[simp] theorem writeDout_detHi (v : Block) (s : State) : (writeDout v s).detHi = s.detHi := rfl
@[simp] theorem writeDout_dinv (v : Block) (s : State) : (writeDout v s).dinv = s.dinv := rfl
@[simp] theorem writeDout_mr (v : Block) (s : State) : (writeDout v s).mr = s.mr := rfl
@[simp] theorem writeDout_rstN (v : Block) (s : State) : (writeDout v s).rstN = s.rstN := rfl
@[simp] theorem writeDout_prdata (v : Block) (s : State) : (writeDout v s).prdata = s.prdata := rfl
@[simp] theorem writeDout_cfg (v : Block) (s : State) : (writeDout v s).cfg = s.cfg := rfl
@[simp] theorem writeDout_drawCount (v : Block) (s : State) : (writeDout v s).drawCount = s.drawCount := rfl
@[simp] theorem writeDout_events (v : Block) (s : State) : (writeDout v s).events = s.events := rfl

@[simp] theorem writeDet_ie (d : Int) (s : State) : (writeDet d s).ie = s.ie := rfl
@[simp] theorem writeDet_status (d : Int) (s : State) : (writeDet d s).status = s.status := rfl
@[simp] theorem writeDet_cmd (d : Int) (s : State) : (writeDet d s).cmd = s.cmd := rfl
@[simp] theorem writeDet_keyHi (d : Int) (s : State) : (writeDet d s).keyHi = s.keyHi := rfl
@[simp] theorem writeDet_keyLo (d : Int) (s : State) : (writeDet d s).keyLo = s.keyLo := rfl
@[simp] theorem writeDet_dinHi (d : Int) (s : State) : (writeDet d s).dinHi = s.dinHi := rfl
@[simp] theorem writeDet_dinLo (d : Int) (s : State) : (writeDet d s).dinLo = s.dinLo := rfl
@[simp] theorem writeDet_doutHi (d : Int) (s : State) : (writeDet d s).doutHi = s.doutHi := rfl
@[simp] theorem writeDet_doutLo (d : Int) (s : State) : (writeDet d s).doutLo = s.doutLo := rfl
@[simp] theorem writeDet_fl (d : Int) (s : State) : (writeDet d s).fl = s.fl := rfl
@[simp] theorem writeDet_fr (d : Int) (s : State) : (writeDet d s).fr = s.fr := rfl
@[simp] theorem writeDet_fIn (d : Int) (s : State) : (writeDet d s).fIn = s.fIn := rfl
@[simp] theorem writeDet_fKhi (d : Int) (s : State) : (writeDet d s).fKhi = s.fKhi := rfl
@[simp] theorem writeDet_fKlo (d : Int) (s : State) : (writeDet d s).fKlo = s.fKlo := rfl
@[simp] theorem writeDet_fOut (d : Int) (s : State) : (writeDet d s).fOut = s.fOut := rfl
@[simp] theorem writeDet_skHi (d : Int) (s : State) : (writeDet d s).skHi = s.skHi := rfl
@[simp] theorem writeDet_skLo (d : Int) (s : State) : (writeDet d s).skLo = s.skLo := rfl
@[simp] theorem writeDet_ma (d : Int) (s : State) : (writeDet d s).ma = s.ma := rfl
@[simp] theorem writeDet_vin (d : Int) (s : State) : (writeDet d s).vin = s.vin := rfl
@[simp] theorem writeDet_vout (d : Int) (s : State) : (writeDet d s).vout = s.vout := rfl
@[simp] theorem writeDet_detLo (d : Int) (s : State) : (writeDet d s).detLo = (BitVec.ofInt 64 d).extractLsb' 0 32 := rfl
@[simp] theorem writeDet_detHi (d : Int) (s : State) : (writeDet d s).detHi = (BitVec.ofInt 64 d).extractLsb' 32 32 := rfl
@[simp] theorem writeDet_dinv (d : Int) (s : State) : (writeDet d s).dinv = s.dinv := rfl
@[simp] theorem writeDet_mr (d : Int) (s : State) : (writeDet d s).mr = s.mr := rfl
@[simp] theorem writeDet_rstN (d : Int) (s : State) : (writeDet d s).rstN = s.rstN := rfl
@[simp] theorem writeDet_prdata (d : Int) (s : State) : (writeDet d s).prdata = s.prdata := rfl
@[simp] theorem writeDet_cfg (d : Int) (s : State) : (writeDet d s).cfg = s.cfg := rfl
@[simp] theorem writeDet_drawCount (d : Int) (s : State) : (writeDet d s).drawCount = s.drawCount := rfl
@[simp] theorem writeDet_events (d : Int) (s : State) : (writeDet d s).events = s.events := rfl

@[simp] theorem writeDinv_ie (di : Nat) (s : State) : (writeDinv di s).ie = s.ie := rfl
@[simp] theorem writeDinv_status (di : Nat) (s : State) : (writeDinv di s).status = s.status := rfl
@[simp] theorem writeDinv_cmd (di : Nat) (s : State) : (writeDinv di s).cmd = s.cmd := rfl
@[simp] theorem writeDinv_keyHi (di : Nat) (s : State) : (writeDinv di s).keyHi = s.keyHi := rfl
@[simp] theorem writeDinv_keyLo (di : Nat) (s : State) : (writeDinv di s).keyLo = s.keyLo := rfl
@[simp] theorem writeDinv_dinHi (di : Nat) (s : State) : (writeDinv di s).dinHi = s.dinHi := rfl
@[simp] theorem writeDinv_dinLo (di : Nat) (s : State) : (writeDinv di s).dinLo = s.dinLo := rfl
@[simp] theorem writeDinv_doutHi (di : Nat) (s : State) : (writeDinv di s).doutHi = s.doutHi := rfl
@[simp] theorem writeDinv_doutLo (di : Nat) (s : State) : (writeDinv di s).doutLo = s.doutLo := rfl
@[simp] theorem writeDinv_fl (di : Nat) (s : State) : (writeDinv di s).fl = s.fl := rfl
@[simp] theorem writeDinv_fr (di : Nat) (s : State) : (writeDinv di s).fr = s.fr := rfl
@[simp] theorem writeDinv_fIn (di : Nat) (s : State) : (writeDinv di s).fIn = s.fIn := rfl
@[simp] theorem writeDinv_fKhi (di : Nat) (s : State) : (writeDinv di s).fKhi = s.fKhi := rfl
@[simp] theorem writeDinv_fKlo (di : Nat) (s : State) : (writeDinv di s).fKlo = s.fKlo := rfl
@[simp] theorem writeDinv_fOut (di : Nat) (s : State) : (writeDinv di s).fOut = s.fOut := rfl
@[simp] theorem writeDinv_skHi (di : Nat) (s : State) : (writeDinv di s).skHi = s.skHi := rfl
@[simp] theorem writeDinv_skLo (di : Nat) (s : State) : (writeDinv di s).skLo = s.skLo := rfl
@[simp] theorem writeDinv_ma (di : Nat) (s : State) : (writeDinv di s).ma = s.ma := rfl
@[simp] theorem writeDinv_vin (di : Nat) (s : State) : (writeDinv di s).vin = s.vin := rfl
@[simp] theorem writeDinv_vout (di : Nat) (s : State) : (writeDinv di s).vout = s.vout := rfl
@[simp] theorem writeDinv_detLo (di : Nat) (s : State) : (writeDinv di s).detLo = s.detLo := rfl
@[simp] theorem writeDinv_detHi (di : Nat) (s : State) : (writeDinv di s).detHi = s.detHi := rfl
@[simp] theorem writeDinv_dinv (di : Nat) (s : State) : (writeDinv di s).dinv = BitVec.ofNat 5 di := rfl
@[simp] theorem writeDinv_mr (di : Nat) (s : State) : (writeDinv di s).mr = s.mr := rfl
@[simp] theorem writeDinv_rstN (di : Nat) (s : State) : (writeDinv di s).rstN = s.rstN := rfl
@[simp] theorem writeDinv_prdata (di : Nat) (s : State) : (writeDinv di s).prdata = s.prdata := rfl
@[simp] theorem writeDinv_cfg (di : Nat) (s : State) : (writeDinv di s).cfg = s.cfg := rfl
@[simp] theorem writeDinv_drawCount (di : Nat) (s : State) : (writeDinv di s).drawCount = s.drawCount := rfl
@[simp] theorem writeDinv_events (di : Nat) (s : State) : (writeDinv di s).events = s.events := rfl

@[simp] theorem writeMr_ie (n : Nat) (b : Nat → Nat → Int) (s : State) : (writeMr n b s).ie = s.ie := rfl
@[simp] theorem writeMr_status (n : Nat) (b : Nat → Nat → Int) (s : State) : (writeMr n b s).status = s.status := rfl
@[simp] theorem writeMr_cmd (n : Nat) (b : Nat → Nat → Int) (s : State) : (writeMr n b s).cmd = s.cmd := rfl
@[simp] theorem writeMr_keyHi (n : Nat) (b : Nat → Nat → Int) (s : State) : (writeMr n b s).keyHi = s.keyHi := rfl
@[simp] theorem writeMr_keyLo (n : Nat) (b : Nat → Nat → Int) (s : State) : (writeMr n b s).keyLo = s.keyLo := rfl
@[simp] theorem writeMr_dinHi (n : Nat) (b : Nat → Nat → Int) (s : State) : (writeMr n b s).dinHi = s.dinHi := rfl
@[simp] theorem writeMr_dinLo (n : Nat) (b : Nat → Nat → Int) (s : State) : (writeMr n b s).dinLo = s.dinLo := rfl
@[simp] theorem writeMr_doutHi (n : Nat) (b : Nat → Nat → Int) (s : State) : (writeMr n b s).doutHi = s.doutHi := rfl
@[simp] theorem writeMr_doutLo (n : Nat) (b : Nat → Nat → Int) (s : State) : (writeMr n b s).doutLo = s.doutLo := rfl
@[simp] theorem writeMr_fl (n : Nat) (b : Nat → Nat → Int) (s : State) : (writeMr n b s).fl = s.fl := rfl
@[simp] theorem writeMr_fr (n : Nat) (b : Nat → Nat → Int) (s : State) : (writeMr n b s).fr = s.fr := rfl
@[simp] theorem writeMr_fIn (n : Nat) (b : Nat → Nat → Int) (s : State) : (writeMr n b s).fIn = s.fIn := rfl
@[simp] theorem writeMr_fKhi (n : Nat) (b : Nat → Nat → Int) (s : State) : (writeMr n b s).fKhi = s.fKhi := rfl
@[simp] theorem writeMr_fKlo (n : Nat) (b : Nat → Nat → Int) (s : State) : (writeMr n b s).fKlo = s.fKlo := rfl
@[simp] theorem writeMr_fOut (n : Nat) (b : Nat → Nat → Int) (s : State) : (writeMr n b s).fOut = s.fOut := rfl
@[simp] theorem writeMr_skHi (n : Nat) (b : Nat → Nat → Int) (s : State) : (writeMr n b s).skHi = s.skHi := rfl
@[simp] theorem writeMr_skLo (n : Nat) (b : Nat → Nat → Int) (s : State) : (writeMr n b s).skLo = s.skLo := rfl
@[simp] theorem writeMr_ma (n : Nat) (b : Nat → Nat → Int) (s : State) : (writeMr n b s).ma = s.ma := rfl
@[simp] theorem writeMr_vin (n : Nat) (b : Nat → Nat → Int) (s : State) : (writeMr n b s).vin = s.vin := rfl
@[simp] theorem writeMr_vout (n : Nat) (b : Nat → Nat → Int) (s : State) : (writeMr n b s).vout = s.vout := rfl
@[simp] theorem writeMr_detLo (n : Nat) (b : Nat → Nat → Int) (s : State) : (writeMr n b s).detLo = s.detLo := rfl
@[simp] theorem writeMr_detHi (n : Nat) (b : Nat → Nat → Int) (s : State) : (writeMr n b s).detHi = s.detHi := rfl
@[simp] theorem writeMr_dinv (n : Nat) (b : Nat → Nat → Int) (s : State) : (writeMr n b s).dinv = s.dinv := rfl
@[simp] theorem writeMr_mr (n : Nat) (b : Nat → Nat → Int) (s : State) : (writeMr n b s).mr = Vector.ofFn fun i : Fin 4 => Vector.ofFn fun j : Fin 4 =>
      if i.val < n ∧ j.val < n then BitVec.ofInt 32 (b i.val j.val) else 0#32 := rfl
@[simp] theorem writeMr_rstN (n : Nat) (b : Nat → Nat → Int) (s : State) : (writeMr n b s).rstN = s.rstN := rfl
@[simp] theorem writeMr_prdata (n : Nat) (b : Nat → Nat → Int) (s : State) : (writeMr n b s).prdata = s.prdata := rfl
@[simp] theorem writeMr_cfg (n : Nat) (b : Nat → Nat → Int) (s : State) : (writeMr n b s).cfg = s.cfg := rfl
@[simp] theorem writeMr_drawCount (n : Nat) (b : Nat → Nat → Int) (s : State) : (writeMr n b s).drawCount = s.drawCount := rfl
@[simp] theorem writeMr_events (n : Nat) (b : Nat → Nat → Int) (s : State) : (writeMr n b s).events = s.events := rfl

@[simp] theorem writeVout_ie (n : Nat) (v : Nat → Int) (s : State) : (writeVout n v s).ie = s.ie := rfl
@[simp] theorem writeVout_status (n : Nat) (v : Nat → Int) (s : State) : (writeVout n v s).status = s.status := rfl
@[simp] theorem writeVout_cmd (n : Nat) (v : Nat → Int) (s : State) : (writeVout n v s).cmd = s.cmd := rfl
@[simp] theorem writeVout_keyHi (n : Nat) (v : Nat → Int) (s : State) : (writeVout n v s).keyHi = s.keyHi := rfl
@[simp] theorem writeVout_keyLo (n : Nat) (v : Nat → Int) (s : State) : (writeVout n v s).keyLo = s.keyLo := rfl
@[simp] theorem writeVout_dinHi (n : Nat) (v : Nat → Int) (s : State) : (writeVout n v s).dinHi = s.dinHi := rfl
@[simp] theorem writeVout_dinLo (n : Nat) (v : Nat → Int) (s : State) : (writeVout n v s).dinLo = s.dinLo := rfl
@[simp] theorem writeVout_doutHi (n : Nat) (v : Nat → Int) (s : State) : (writeVout n v s).doutHi = s.doutHi := rfl
@[simp] theorem writeVout_doutLo (n : Nat) (v : Nat → Int) (s : State) : (writeVout n v s).doutLo = s.doutLo := rfl
@[simp] theorem writeVout_fl (n : Nat) (v : Nat → Int) (s : State) : (writeVout n v s).fl = s.fl := rfl
@[simp] theorem writeVout_fr (n : Nat) (v : Nat → Int) (s : State) : (writeVout n v s).fr = s.fr := rfl
@[simp] theorem writeVout_fIn (n : Nat) (v : Nat → Int) (s : State) : (writeVout n v s).fIn = s.fIn := rfl
@[simp] theorem writeVout_fKhi (n : Nat) (v : Nat → Int) (s : State) : (writeVout n v s).fKhi = s.fKhi := rfl
@[simp] theorem writeVout_fKlo (n : Nat) (v : Nat → Int) (s : State) : (writeVout n v s).fKlo = s.fKlo := rfl
@[simp] theorem writeVout_fOut (n : Nat) (v : Nat → Int) (s : State) : (writeVout n v s).fOut = s.fOut := rfl
@[simp] theorem writeVout_skHi (n : Nat) (v : Nat → Int) (s : State) : (writeVout n v s).skHi = s.skHi := rfl
@[simp] theorem writeVout_skLo (n : Nat) (v : Nat → Int) (s : State) : (writeVout n v s).skLo = s.skLo := rfl
@[simp] theorem writeVout_ma (n : Nat) (v : Nat → Int) (s : State) : (writeVout n v s).ma = s.ma := rfl
@[simp] theorem writeVout_vin (n : Nat) (v : Nat → Int) (s : State) : (writeVout n v s).vin = s.vin := rfl
@[simp] theorem writeVout_vout (n : Nat) (v : Nat → Int) (s : State) : (writeVout n v s).vout = Vector.ofFn fun j : Fin 4 => if j.val < n then BitVec.ofInt 5 (v j.val) else 0#5 := rfl
@[simp] theorem writeVout_detLo (n : Nat) (v : Nat → Int) (s : State) : (writeVout n v s).detLo = s.detLo := rfl
@[simp] theorem writeVout_detHi (n : Nat) (v : Nat → Int) (s : State) : (writeVout n v s).detHi = s.detHi := rfl
@[simp] theorem writeVout_dinv (n : Nat) (v : Nat → Int) (s : State) : (writeVout n v s).dinv = s.dinv := rfl
@[simp] theorem writeVout_mr (n : Nat) (v : Nat → Int) (s : State) : (writeVout n v s).mr = s.mr := rfl
@[simp] theorem writeVout_rstN (n : Nat) (v : Nat → Int) (s : State) : (writeVout n v s).rstN = s.rstN := rfl
@[simp] theorem writeVout_prdata (n : Nat) (v : Nat → Int) (s : State) : (writeVout n v s).prdata = s.prdata := rfl
@[simp] theorem writeVout_cfg (n : Nat) (v : Nat → Int) (s : State) : (writeVout n v s).cfg = s.cfg := rfl
@[simp] theorem writeVout_drawCount (n : Nat) (v : Nat → Int) (s : State) : (writeVout n v s).drawCount = s.drawCount := rfl
@[simp] theorem writeVout_events (n : Nat) (v : Nat → Int) (s : State) : (writeVout n v s).events = s.events := rfl

@[simp] theorem blockReset_ie (s : State) : (blockReset s).ie = false := rfl
@[simp] theorem blockReset_status (s : State) : (blockReset s).status = Status.reset := rfl
@[simp] theorem blockReset_cmd (s : State) : (blockReset s).cmd = 0#32 := rfl
@[simp] theorem blockReset_keyHi (s : State) : (blockReset s).keyHi = 0#32 := rfl
@[simp] theorem blockReset_keyLo (s : State) : (blockReset s).keyLo = 0#32 := rfl
@[simp] theorem blockReset_dinHi (s : State) : (blockReset s).dinHi = 0#32 := rfl
@[simp] theorem blockReset_dinLo (s : State) : (blockReset s).dinLo = 0#32 := rfl
@[simp] theorem blockReset_doutHi (s : State) : (blockReset s).doutHi = 0#32 := rfl
@[simp] theorem blockReset_doutLo (s : State) : (blockReset s).doutLo = 0#32 := rfl
@[simp] theorem blockReset_fl (s : State) : (blockReset s).fl = 0#32 := rfl
@[simp] theorem blockReset_fr (s : State) : (blockReset s).fr = 0#32 := rfl
@[simp] theorem blockReset_fIn (s : State) : (blockReset s).fIn = 0#32 := rfl
@[simp] theorem blockReset_fKhi (s : State) : (blockReset s).fKhi = 0#16 := rfl
@[simp] theorem blockReset_fKlo (s : State) : (blockReset s).fKlo = 0#32 := rfl
@[simp] theorem blockReset_fOut (s : State) : (blockReset s).fOut = 0#32 := rfl
@[simp] theorem blockReset_skHi (s : State) : (blockReset s).skHi = Vector.replicate 16 0#16 := rfl
@[simp] theorem blockReset_skLo (s : State) : (blockReset s).skLo = Vector.replicate 16 0#32 := rfl
@[simp] theorem blockReset_ma (s : State) : (blockReset s).ma = Vector.replicate 4 (Vector.replicate 4 0#8) := rfl
@[simp] theorem blockReset_vin (s : State) : (blockReset s).vin = Vector.replicate 4 0#8 := rfl
@[simp] theorem blockReset_vout (s : State) : (blockReset s).vout = Vector.replicate 4 0#5 := rfl
@[simp] theorem blockReset_detLo (s : State) : (blockReset s).detLo = 0#32 := rfl
@[simp] theorem blockReset_detHi (s : State) : (blockReset s).detHi = 0#32 := rfl
@[simp] theorem blockReset_dinv (s : State) : (blockReset s).dinv = 0#5 := rfl
@[simp] theorem blockReset_mr (s : State) : (blockReset s).mr = Vector.replicate 4 (Vector.replicate 4 0#32) := rfl
@[simp] theorem blockReset_written (s : State) : (blockReset s).written = [] := rfl
@[simp] theorem blockReset_rstN (s : State) : (blockReset s).rstN = s.rstN := rfl
@[simp] theorem blockReset_prdata (s : State) : (blockReset s).prdata = s.prdata := rfl
@[simp] theorem blockReset_cfg (s : State) : (blockReset s).cfg = s.cfg := rfl
@[simp] theorem blockReset_drawCount (s : State) : (blockReset s).drawCount = s.drawCount := rfl
@[simp] theorem blockReset_events (s : State) : (blockReset s).events = s.events := rfl

end Sys2Proof.Machine
end

