-- ==== Sys2Proof/Laws/Ops.lean ====
section
/-! SUPPORT. What each shared operation can do, said once: the read values after each update, the list of
written registers, the operand check, the shape check, and the flag updates. -/

namespace Sys2Proof.Machine

theorem mem_markWritten {r : Reg} {rs : List Reg} {s : State} :
    r ∈ (markWritten rs s).written ↔ r ∈ rs ∨ r ∈ s.written := by
  simp only [markWritten_written]
  induction rs with
  | nil => simp
  | cons a rs ih => simp [List.mem_insert_iff, ih, or_assoc]

theorem markWritten_nodup {rs : List Reg} {s : State} (h : s.written.Nodup) : (markWritten rs s).written.Nodup := by
  simp only [markWritten_written]
  induction rs with
  | nil => exact h
  | cons a rs ih => exact ih.insert

theorem readReg_completeWith {r : Reg} (h : r ≠ .status) (c : BitVec 4) (s : State) :
    readReg r (completeWith c s) = readReg r s := by cases r <;> first | exact absurd rfl h | rfl

theorem readReg_dropWrite {r : Reg} (h : r ≠ .status) (s : State) :
    readReg r (dropWrite s) = readReg r s := by cases r <;> first | exact absurd rfl h | rfl

theorem readReg_accept {r : Reg} (h : r ≠ .status) (h' : r ≠ .cmd) (w : Word) (s : State) :
    readReg r (accept w s) = readReg r s := by
  cases r <;> first | exact absurd rfl h | exact absurd rfl h' | rfl

@[simp] theorem readReg_markWritten (r : Reg) (rs : List Reg) (s : State) :
    readReg r (markWritten rs s) = readReg r s := by cases r <;> rfl

theorem readReg_blockReset (r : Reg) (s : State) : readReg r (blockReset s) = if r = .id then idValue else 0#32 := by
  cases r <;> simp [readReg, bitWord, statusWord, Status.reset]

@[simp] theorem readReg_events (r : Reg) (s : State) (es : List Event) :
    readReg r { s with events := es } = readReg r s := by cases r <;> rfl

theorem withOperands_ready {rs : List Reg} {s : State} (h : operandsReady rs s = true) (go : StepOutcome) :
    withOperands rs s go = go := by simp [withOperands, h]

theorem withOperands_next {rs : List Reg} {s t : State} {go : StepOutcome} (h : withOperands rs s go = .next t) :
    operandsReady rs s = true ∧ go = .next t := by
  unfold withOperands at h
  split at h
  · exact ⟨‹_›, h⟩
  · cases h

theorem withOperands_fault {rs : List Reg} {s : State} {go : StepOutcome} {f : Fault}
    (h : withOperands rs s go = .fault f) :
    (operandsReady rs s = false ∧ f = .unwrittenOperand) ∨ (operandsReady rs s = true ∧ go = .fault f) := by
  unfold withOperands at h
  split at h
  · exact .inr ⟨‹_›, h⟩
  · cases h
    exact .inl ⟨eq_false_of_ne_true ‹_›, rfl⟩

theorem operandsReady_iff {rs : List Reg} {s : State} :
    operandsReady rs s = true ↔ s.cfg.faultOnUnwritten = false ∨ ∀ r ∈ rs, r ∈ s.written := by
  simp [operandsReady]

theorem matrixCommand_run {n m : BitVec 3} {s : State} {operands : Nat → List Reg} {run : Nat → StepOutcome}
    (hd : dimOk n m = true) (hnm : n = m) (hr : operandsReady (operands n.toNat) s = true) :
    matrixCommand n m s operands run = run n.toNat := by
  simp only [matrixCommand, if_pos hd, if_pos hnm, withOperands_ready hr]

/-- A matrix command that goes on either stops early with an error of its form, or runs on read operands. -/
theorem matrixCommand_next {n m : BitVec 3} {s t : State} {operands : Nat → List Reg} {run : Nat → StepOutcome}
    (h : matrixCommand n m s operands run = .next t) :
    (dimOk n m = false ∧ t = completeWith (errorCode .illegalCmd) s) ∨
    (dimOk n m = true ∧ n ≠ m ∧ t = completeWith (errorCode .invalidMatrixShape) s) ∨
    (dimOk n m = true ∧ n = m ∧ operandsReady (operands n.toNat) s = true ∧ run n.toNat = .next t) := by
  unfold matrixCommand at h
  split at h
  · split at h
    · obtain ⟨hr, hg⟩ := withOperands_next h
      exact .inr (.inr ⟨‹_›, ‹_›, hr, hg⟩)
    · cases h
      exact .inr (.inl ⟨‹_›, ‹_›, rfl⟩)
  · cases h
    exact .inl ⟨eq_false_of_ne_true ‹_›, rfl⟩

theorem statusOk_complete {c : BitVec 4} (h : c.toNat ≤ 4) (st : Status) : statusOk (statusComplete c st) = true := by
  simp [statusOk, statusComplete, h]

theorem statusOk_accept (st : Status) : statusOk (statusAccept st) = true := by simp [statusOk, statusAccept]

theorem statusOk_overrun {st : Status} (h : statusOk st = true) : statusOk (statusOverrun st) = true := h

theorem statusOk_write {st : Status} (h : statusOk st = true) (w : Word) : statusOk (statusWrite w st) = true := by
  by_cases h2 : w.getLsbD 2 = true <;> by_cases h1 : w.getLsbD 1 = true <;>
    simp only [statusOk, statusWrite, h1, h2, if_true, if_false, Bool.false_eq_true] at h ⊢ <;> simp_all
  all_goals tauto

theorem errorCode_le (e : CmdError) : (errorCode e).toNat ≤ 4 := by cases e <;> decide

theorem errorCode_ne_zero (e : CmdError) : errorCode e ≠ 0#4 := by cases e <;> decide

/-! What a result write or a host write leaves: every register outside its list reads as before. -/

theorem mem_matrixRegs_mr (i j : Fin 4) : Reg.mr i j ∈ matrixRegs .mr := by revert i j; decide

theorem mem_skRegs_hi (r : Fin 16) : Reg.skHi r ∈ skRegs := by revert r; decide

theorem mem_skRegs_lo (r : Fin 16) : Reg.skLo r ∈ skRegs := by revert r; decide

theorem readReg_writeFOut {r : Reg} (h : r ≠ .fOut) (v : Half) (s : State) : readReg r (writeFOut v s) = readReg r s := by
  cases r <;> first | rfl | exact absurd rfl h

theorem readReg_writeFeistel {r : Reg} (h : r ∉ [Reg.fl, .fr]) (v w : Half) (s : State) :
    readReg r (writeFeistel v w s) = readReg r s := by
  cases r <;> first | rfl | exact absurd (by simp) h

theorem readReg_writeDout {r : Reg} (h : r ∉ [Reg.doutHi, .doutLo]) (v : Block) (s : State) :
    readReg r (writeDout v s) = readReg r s := by
  cases r <;> first | rfl | exact absurd (by simp) h

theorem readReg_writeDet {r : Reg} (h : r ∉ [Reg.detLo, .detHi]) (d : Int) (s : State) :
    readReg r (writeDet d s) = readReg r s := by
  cases r <;> first | rfl | exact absurd (by simp) h

theorem readReg_writeDinv {r : Reg} (h : r ≠ .dinv) (d : Nat) (s : State) :
    readReg r (writeDinv d s) = readReg r s := by
  cases r <;> first | rfl | exact absurd rfl h

theorem readReg_writeMr {r : Reg} (h : r ∉ matrixRegs .mr) (n : Nat) (b : Nat → Nat → Int) (s : State) :
    readReg r (writeMr n b s) = readReg r s := by
  cases r with
  | mr i j => exact absurd (mem_matrixRegs_mr i j) h
  | _ => rfl

theorem readReg_writeVout {r : Reg} (h : r ∉ (List.finRange 4).map .vout) (n : Nat) (v : Nat → Int) (s : State) :
    readReg r (writeVout n v s) = readReg r s := by
  cases r with
  | vout j => exact absurd (by simp) h
  | _ => rfl

theorem readReg_writeSubkeys {r : Reg} (h : r ∉ skRegs) (ks : List Subkey) (s : State) :
    readReg r (writeSubkeys ks s) = readReg r s := by
  rw [writeSubkeys, readReg_markWritten]
  cases r with
  | skHi k => exact absurd (mem_skRegs_hi k) h
  | skLo k => exact absurd (mem_skRegs_lo k) h
  | _ => simp only [readReg]
/-- A host write of one register leaves every other register as it was. -/

theorem readReg_storeField {q r : Reg} (h : q ≠ r) (w : Word) (s : State) :
    readReg q (storeField r w s) = readReg q s := by
  cases r <;> first | rfl | skip
  all_goals cases q <;> first | rfl | exact absurd rfl h | skip
  all_goals simp only [readReg, storeField, Vector.getElem_set]
  all_goals simp_all only [ne_eq, Reg.skHi.injEq, Reg.skLo.injEq, Reg.ma.injEq, Reg.vin.injEq, Fin.ext_iff]
  case ma.ma =>
    split
    · simp_all only [true_and, Vector.getElem_set]
      rw [if_neg (fun e => h e.symm)]
    · rfl
  all_goals rw [if_neg (fun e => h e.symm)]

end Sys2Proof.Machine
end

