-- ==== Sys2Proof/Laws/Exec.lean ====
section
/-! SUPPORT. What `exec` and `step` can answer, each said once. -/

namespace Sys2Proof.Machine

/-- The state with a successful command's results written, before the STATUS update. -/
def resultState (i : Instr) (s : State) : State :=
  match i with
  | .nop => s
  | .ks => writeSubkeys (keySchedule (keyValue s)) s
  | .ffunc => writeFOut (roundFunction s.fIn (fkValue s)) s
  | .round idx => writeFeistel s.fr (s.fl ^^^ roundFunction s.fr (subkey idx.toFin s)) s
  | .blockEnc => writeDout (desBlock (dinValue s) (subkeys s)) s
  | .blockDec => writeDout (desBlock (dinValue s) (subkeys s).reverse) s
  | .iperm => writeDout (initialPermutation (dinValue s)) s
  | .fperm => writeDout (finalPermutation (dinValue s)) s
  | .det n _ => writeDet (matDet n.toNat (maEntry s)) s
  | .adj n _ => writeMr n.toNat (orient false (matAdjugate n.toNat (maEntry s))) s
  | .adjT n _ => writeMr n.toNat (orient true (matAdjugate n.toNat (maEntry s))) s
  | .inv n _ =>
    writeInverse false n.toNat (matDet n.toNat (maEntry s)) ((modInv26 (matDet n.toNat (maEntry s))).getD 0) s
  | .invT n _ =>
    writeInverse true n.toNat (matDet n.toNat (maEntry s)) ((modInv26 (matDet n.toNat (maEntry s))).getD 0) s
  | .mvm n _ => writeVout n.toNat (matVec26 n.toNat (maEntry s) (vinEntry s)) s
  | .mvmS n _ => writeVout n.toNat (matVec26 n.toNat (mrEntry s) (vinEntry s)) s
  | .vmm n _ => writeVout n.toNat (vecMat26 n.toNat (maEntry s) (vinEntry s)) s
  | .vmmS n _ => writeVout n.toNat (vecMat26 n.toNat (mrEntry s) (vinEntry s)) s

theorem invFromDet_next {b : Bool} {k : Nat} {d : Int} {s t : State} (h : invFromDet b k d s = .next t) :
    (Int.gcd d 26 ≠ 1 ∧ t = completeWith (errorCode .noModularInverse) s) ∨
    (Int.gcd d 26 = 1 ∧ ∃ di, modInv26 d = some di ∧ t = completeWith 0#4 (writeInverse b k d di s)) := by
  unfold invFromDet at h
  split at h
  · split at h
    · cases h
      exact .inr ⟨‹_›, _, ‹_›, rfl⟩
    · cases h
  · cases h
    exact .inl ⟨‹_›, rfl⟩

/-- INV that goes on: an error of its form, a zero diagonal product, no modular inverse, or success. -/
theorem invCommand_next {b : Bool} {n m : BitVec 3} {s t : State} (h : invCommand b n m s = .next t) :
    (∃ e, t = completeWith (errorCode e) s) ∨
    (n = m ∧ operandsReady (maRegs n.toNat) s = true ∧ ∃ di, modInv26 (matDet n.toNat (maEntry s)) = some di ∧
      t = completeWith 0#4 (writeInverse b n.toNat (matDet n.toNat (maEntry s)) di s)) := by
  rcases matrixCommand_next h with ⟨-, rfl⟩ | ⟨-, -, rfl⟩ | ⟨-, hnm, hr, hrun⟩
  · exact .inl ⟨_, rfl⟩
  · exact .inl ⟨_, rfl⟩
  · split at hrun
    · cases hrun
      exact .inl ⟨_, rfl⟩
    · rcases invFromDet_next hrun with ⟨-, rfl⟩ | ⟨-, di, hdi, rfl⟩
      · exact .inl ⟨_, rfl⟩
      · exact .inr ⟨hnm, hr, di, hdi, rfl⟩

/-- Every command that goes on completes: with an error code and nothing else changed, or with its results. -/
theorem exec_next {i : Instr} {s t : State} (h : exec i s = .next t) :
    (∃ e, t = completeWith (errorCode e) s) ∨
    (operandsReady (operandRegs i) s = true ∧ t = completeWith 0#4 (resultState i s)) := by
  cases i with
  | nop => cases h; exact .inr ⟨by simp [operandsReady, operandRegs], rfl⟩
  | ks | ffunc | round | blockEnc | blockDec | iperm | fperm =>
    obtain ⟨hr, hg⟩ := withOperands_next h
    cases hg
    exact .inr ⟨hr, rfl⟩
  | det | adj | adjT | mvm | mvmS | vmm | vmmS =>
    simp only [exec, execDet, execAdj, execAdjT, adjCommand, execMvm, execMvmS, execVmm, execVmmS] at h
    rcases matrixCommand_next h with ⟨-, rfl⟩ | ⟨-, -, rfl⟩ | ⟨-, -, hr, hg⟩
    · exact .inl ⟨_, rfl⟩
    · exact .inl ⟨_, rfl⟩
    · cases hg
      exact .inr ⟨hr, rfl⟩
  | inv | invT =>
    simp only [exec, execInv, execInvT] at h
    rcases invCommand_next h with he | ⟨-, hr, di, hdi, rfl⟩
    · exact .inl he
    · exact .inr ⟨hr, by simp [resultState, hdi]⟩

/-- A step that goes on handles the oldest pending event, or the engine's turn when none is pending. -/
theorem step_next {s t : State} (h : step s = .next t) :
    statusOk s.status = true ∧
    ((s.events = [] ∧ handleEvent .engine s = .next t) ∨
      ∃ e rest, s.events = e :: rest ∧ handleEvent e { s with events := rest } = .next t) := by
  unfold step at h
  split at h
  · refine ⟨‹_›, ?_⟩
    unfold nextEvent at h
    split at h
    · exact .inl ⟨‹_›, h⟩
    · exact .inr ⟨_, _, ‹_›, h⟩
  · cases h

/-- What one event can lead to. -/
theorem handleEvent_next {e : Event} {s t : State} (h : handleEvent e s = .next t) :
    (s.rstN = false ∧ t = heldInReset e s) ∨
    (s.rstN = true ∧ ∃ b, e = .bus b ∧ busTransfer b s = .next t) ∨
    (s.rstN = true ∧ e = .engine ∧ s.status.busy = true ∧ completion s = .next t) ∨
    (s.rstN = true ∧ e = .engine ∧ s.status.busy = false ∧ t = s) ∨
    (s.rstN = true ∧ ∃ level, e = .rstN level ∧ t = setRstN level s) := by
  unfold handleEvent at h
  split at h
  · cases e with
    | bus b => exact .inr (.inl ⟨‹_›, b, rfl, h⟩)
    | engine =>
      simp only [engineTurn] at h
      split at h
      · exact .inr (.inr (.inl ⟨‹_›, rfl, ‹_›, h⟩))
      · cases h
        exact .inr (.inr (.inr (.inl ⟨‹_›, rfl, eq_false_of_ne_true ‹_›, rfl⟩)))
    | rstN level =>
      cases h
      exact .inr (.inr (.inr (.inr ⟨‹_›, level, rfl, rfl⟩)))
  · cases h
    exact .inl ⟨eq_false_of_ne_true ‹_›, rfl⟩

/-- A completion that goes on: an illegal word, or a command. -/
theorem completion_next {s t : State} (h : completion s = .next t) :
    ((∃ e, decode s.cmd = .error e) ∧ t = completeWith (errorCode .illegalCmd) s) ∨
    (∃ i, decode s.cmd = .ok i ∧ exec i s = .next t) := by
  unfold completion fetch at h
  split at h
  · exact .inr ⟨_, ‹_›, h⟩
  · cases h
    exact .inl ⟨⟨_, ‹_›⟩, rfl⟩

/-- An accepted bus transfer: a reserved offset, a write of a register, or a read of one. -/
theorem busTransfer_next {b : Transfer} {s t : State} (h : busTransfer b s = .next t) :
    accepted b = true ∧
    ((regAt b.paddr = none ∧ s.cfg.strictDecode = false ∧ t = (if b.pwrite then s else { s with prdata := 0#32 })) ∨
      ∃ r, regAt b.paddr = some r ∧ t = (if b.pwrite then regWrite r b.pwdata s else regRead r s)) := by
  unfold busTransfer at h
  split at h
  · refine ⟨‹_›, ?_⟩
    unfold acceptedAccess at h
    split at h
    · unfold reservedAccess at h
      split at h
      · cases h
      · cases h
        exact .inl ⟨‹_›, eq_false_of_ne_true ‹_›, rfl⟩
    · cases h
      exact .inr ⟨_, ‹_›, rfl⟩
  · cases h

/-- A successful command leaves every register outside its row as it was. -/
theorem readReg_resultState {i : Instr} {r : Reg} (h : r ∉ resultRegs i) (s : State) :
    readReg r (resultState i s) = readReg r s := by
  cases i <;> simp only [resultRegs] at h
  case nop => rfl
  case ks => exact readReg_writeSubkeys h _ _
  case ffunc => exact readReg_writeFOut (by simpa using h) _ _
  case round => exact readReg_writeFeistel h _ _ _
  case blockEnc | blockDec | iperm | fperm => exact readReg_writeDout h _ _
  case det => exact readReg_writeDet h _ _
  case adj | adjT => exact readReg_writeMr h _ _ _
  case inv | invT =>
    have h' : r ∉ [Reg.detLo, .detHi] ∧ r ≠ .dinv ∧ r ∉ matrixRegs .mr := by simp_all
    simp only [resultState, writeInverse]
    rw [readReg_writeMr h'.2.2, readReg_writeDinv h'.2.1, readReg_writeDet h'.1]
  case mvm | mvmS | vmm | vmmS => exact readReg_writeVout h _ _ _

/-- What a successful command leaves beside the registers. -/
theorem resultState_environment (i : Instr) (s : State) :
    (resultState i s).status = s.status ∧ (resultState i s).ie = s.ie ∧ (resultState i s).cmd = s.cmd ∧
      sameEnvironment s (resultState i s) := by
  cases i <;> simp [sameEnvironment, resultState, writeInverse]

theorem mem_resultState_written {i : Instr} {r : Reg} {s : State} :
    r ∈ (resultState i s).written ↔ r ∈ resultRegs i ∨ r ∈ s.written := by
  cases i <;> simp only [resultRegs, resultState, writeSubkeys, writeFOut, writeFeistel, writeDout, writeDet, writeMr, writeVout, writeInverse, writeDinv, mem_markWritten, List.mem_append, List.not_mem_nil, false_or]
  case ks => rfl
  all_goals (simp only [List.mem_cons, List.not_mem_nil]; tauto)

theorem accepted_write (r : Reg) (w : Word) : accepted ⟨regOffset r, true, w, 0b1111#4⟩ = true := by
  simp [accepted]
  cases r <;> first | decide | (rename_i a; revert a; decide) | (rename_i a b; revert a b; decide)

theorem accepted_read (r : Reg) : accepted ⟨regOffset r, false, 0#32, 0#4⟩ = true := by
  simp [accepted]
  cases r <;> first | decide | (rename_i a; revert a; decide) | (rename_i a b; revert a b; decide)

theorem regAt_regOffset (r : Reg) : regAt (regOffset r) = some r := by
  cases r <;> first | decide | (rename_i a; revert a; decide) | (rename_i a b; revert a b; decide)

/-- A write of a register by name is accepted and reaches the register. -/
theorem step_write {s : State} {r : Reg} {w : Word} {rest : List Event} (h : running s)
    (he : s.events = writeEvent r w :: rest) : step s = .next (regWrite r w { s with events := rest }) := by
  simp [step, h.1, h.2, nextEvent, he, handleEvent, writeEvent, busTransfer, accepted_write, acceptedAccess,
    regAt_regOffset]

/-- A read of a register by name is accepted and reaches the register. -/
theorem step_read {s : State} {r : Reg} {rest : List Event} (h : running s)
    (he : s.events = readEvent r :: rest) : step s = .next (regRead r { s with events := rest }) := by
  simp [step, h.1, h.2, nextEvent, he, handleEvent, readEvent, busTransfer, accepted_read, acceptedAccess,
    regAt_regOffset]

end Sys2Proof.Machine
end

