-- ==== Sys2Proof/Laws/PerInstr.lean ====
section
/-! SUPPORT. The family of statements made per instruction: the word that `encode` gives a command keeps
every reserved bit 0 (30_encoding.md R90), whatever its operands. -/

namespace Sys2Proof.Laws.ReservedBits

/-- The encoding of a command leaves bits 11, 15 and 31:19 clear. -/
def Statement (i : Instr) : Prop := reservedClear (encode i) = true

theorem reservedClear_encodeMatrix (base : Word) (hb : reservedClear base = true) (n m : BitVec 3) :
    reservedClear (encodeMatrix base n m) = true := by
  simp only [reservedClear, bitSlice, Bool.and_eq_true, Bool.not_eq_true', beq_iff_eq] at hb ⊢
  obtain ⟨⟨h1, h2⟩, h3⟩ := hb
  refine ⟨⟨?_, ?_⟩, ?_⟩
  · simpa [encodeMatrix] using h1
  · simpa [encodeMatrix] using h2
  · apply BitVec.eq_of_getLsbD_eq
    intro k hk
    have h4 := congrArg (fun v : BitVec 13 => v.getLsbD k) h3
    simp only [BitVec.getLsbD_extractLsb', hk, decide_true, Bool.true_and, BitVec.getLsbD_zero] at h4 ⊢
    have h5 : n.getLsbD (19 + k - 12) = false := BitVec.getLsbD_of_ge n _ (by omega)
    have h6 : m.getLsbD (19 + k - 16) = false := BitVec.getLsbD_of_ge m _ (by omega)
    simp [encodeMatrix, h4, h5, h6]

theorem nop : Statement .nop := rfl
theorem ks : Statement .ks := rfl
theorem ffunc : Statement .ffunc := rfl
theorem round (idx : BitVec 4) : Statement (.round idx) := by revert idx; unfold Statement; decide
theorem blockEnc : Statement .blockEnc := rfl
theorem blockDec : Statement .blockDec := rfl
theorem iperm : Statement .iperm := rfl
theorem fperm : Statement .fperm := rfl
theorem det (n m : BitVec 3) : Statement (.det n m) := reservedClear_encodeMatrix _ (by decide) n m
theorem adj (n m : BitVec 3) : Statement (.adj n m) := reservedClear_encodeMatrix _ (by decide) n m
theorem adjT (n m : BitVec 3) : Statement (.adjT n m) := reservedClear_encodeMatrix _ (by decide) n m
theorem inv (n m : BitVec 3) : Statement (.inv n m) := reservedClear_encodeMatrix _ (by decide) n m
theorem invT (n m : BitVec 3) : Statement (.invT n m) := reservedClear_encodeMatrix _ (by decide) n m
theorem mvm (n m : BitVec 3) : Statement (.mvm n m) := reservedClear_encodeMatrix _ (by decide) n m
theorem mvmS (n m : BitVec 3) : Statement (.mvmS n m) := reservedClear_encodeMatrix _ (by decide) n m
theorem vmm (n m : BitVec 3) : Statement (.vmm n m) := reservedClear_encodeMatrix _ (by decide) n m
theorem vmmS (n m : BitVec 3) : Statement (.vmmS n m) := reservedClear_encodeMatrix _ (by decide) n m

end Sys2Proof.Laws.ReservedBits
end

