-- ==== Sys2Proof/Tests/Slice0.lean ====
section
/-! SUPPORT. Our own tests: each expected value is one that spec/ prints (95_test_vectors.md, or the rule
named), on a small state built by the helpers below. -/

namespace Sys2Proof.Tests

open Sys2Proof.Machine

/-- What a step or a command leaves, seen through `view`; none if it stops. -/
def after {α : Type} (o : StepOutcome) (view : State → α) : Option α :=
  match o with
  | .next t => some (view t)
  | .fault _ => none
  | .refused _ => none

/-- The reset state with host writes to operand registers performed. -/
def loaded (writes : List (Reg × Word)) : State :=
  writes.foldl (fun s p => writeOperand p.1 p.2 s) State.reset

/-- The reset state with the rows of a matrix in MA. -/
def withMatrix (rows : List (List Int)) : State :=
  loaded ((List.range rows.length).flatMap fun i => (List.range (rows.getD i []).length).map fun j =>
    (Reg.ma (index 3 i) (index 3 j), BitVec.ofInt 32 ((rows.getD i []).getD j 0)))

/-- A state with a vector in VIN. -/
def withVector (v : List Int) (s : State) : State :=
  (List.range v.length).foldl (fun s j => writeOperand (.vin (index 3 j)) (BitVec.ofInt 32 (v.getD j 0)) s) s

/-- A state with sixteen subkeys in SK. -/
def withSubkeys (ks : List Subkey) (s : State) : State := writeSubkeys ks s

def statusOf (s : State) : Word := readReg .status s
def mrRow (i : Fin 4) (s : State) : List Int := (List.range 4).map fun j => mrEntry s i.val j
def voutOf (s : State) : List Nat := s.vout.toList.map BitVec.toNat

/-- The subkeys of V-KS-1. -/
def subkeysKs1 : List Subkey :=
  [0x1B02EFFC7072#48, 0x79AED9DBC9E5#48, 0x55FC8A42CF99#48, 0x72ADD6DB351D#48, 0x7CEC07EB53A8#48, 0x63A53E507B2F#48,
   0xEC84B7F618BC#48, 0xF78A3AC13BFB#48, 0xE0DBEBEDE781#48, 0xB1F347BA464F#48, 0x215FD3DED386#48, 0x7571F59467E9#48,
   0x97C5D1FABA41#48, 0x5F43B7F2E73A#48, 0xBF918D3D3F0A#48, 0xCB3D8B0E17F5#48]

/-! ### WellFormed -/

/-- 30_encoding.md R98, dimOK: N and M in 1..4. -/
theorem test_wellFormed_accepts : (Instr.det 4#3 1#3).wellFormed = true := by decide
theorem test_wellFormed_refuses_n_low : (Instr.det 0#3 2#3).wellFormed = false := by decide
theorem test_wellFormed_refuses_n_high : (Instr.inv 5#3 2#3).wellFormed = false := by decide
theorem test_wellFormed_refuses_m_low : (Instr.mvmS 2#3 0#3).wellFormed = false := by decide
theorem test_wellFormed_refuses_m_high : (Instr.adjT 2#3 7#3).wellFormed = false := by decide

/-! ### Decoding: words written out from 30_encoding.md R101 and 95_test_vectors.md V-E -/

theorem test_decode_nop : decode 0b00000000000000000000000000000000#32 = .ok .nop := by decide
theorem test_decode_ks : decode 0b00000000000000000000000000000001#32 = .ok .ks := by decide
theorem test_decode_ffunc : decode 0b00000000000000000000000000000010#32 = .ok .ffunc := by decide
theorem test_decode_round15 : decode 0b00000000000000000000000011110011#32 = .ok (.round 15#4) := by decide
theorem test_decode_blockEnc : decode 0b00000000000000000000000000000100#32 = .ok .blockEnc := by decide
theorem test_decode_blockDec : decode 0b00000000000000000000000100000100#32 = .ok .blockDec := by decide
theorem test_decode_iperm : decode 0b00000000000000000000000000000101#32 = .ok .iperm := by decide
theorem test_decode_fperm : decode 0b00000000000000000000000000000110#32 = .ok .fperm := by decide
theorem test_decode_det3 : decode 0x00033008#32 = .ok (.det 3#3 3#3) := by decide
theorem test_decode_det2x3 : decode 0x00032008#32 = .ok (.det 2#3 3#3) := by decide
theorem test_decode_adj2 : decode 0x00022009#32 = .ok (.adj 2#3 2#3) := by decide
theorem test_decode_adjT2 : decode 0x00022209#32 = .ok (.adjT 2#3 2#3) := by decide
theorem test_decode_inv2x1 : decode 0x0001200A#32 = .ok (.inv 2#3 1#3) := by decide
theorem test_decode_invT2 : decode 0x0002220A#32 = .ok (.invT 2#3 2#3) := by decide
theorem test_decode_mvm2 : decode 0x0002200B#32 = .ok (.mvm 2#3 2#3) := by decide
theorem test_decode_mvmS2 : decode 0x0002240B#32 = .ok (.mvmS 2#3 2#3) := by decide
theorem test_decode_vmm2 : decode 0x0002200C#32 = .ok (.vmm 2#3 2#3) := by decide
theorem test_decode_vmmS2 : decode 0x0002240C#32 = .ok (.vmmS 2#3 2#3) := by decide

/-- V-E-3, 4, 5, 7, 9: reserved opcodes and unused fields. -/
theorem test_decode_refuses_opcode : decode 0x00000007#32 = .error .reservedOpcode := by decide
theorem test_decode_refuses_opcode_high : decode 0x0000000F#32 = .error .reservedOpcode := by decide
theorem test_decode_refuses_idx : decode 0x00000011#32 = .error .unusedField := by decide
theorem test_decode_refuses_dir : decode 0x00000103#32 = .error .unusedField := by decide
theorem test_decode_refuses_t : decode 0x00000204#32 = .error .unusedField := by decide
/-- V-E-10, 13, 15, 16, 17, 18, 20, 21. -/
theorem test_decode_refuses_dim0 : decode 0x00000008#32 = .error .badDimension := by decide
theorem test_decode_refuses_dim5 : decode 0x00055008#32 = .error .badDimension := by decide
theorem test_decode_refuses_bit11 : decode 0x00022808#32 = .error .reservedBits := by decide
theorem test_decode_refuses_bit15 : decode 0x0002A008#32 = .error .reservedBits := by decide
theorem test_decode_refuses_bit19 : decode 0x000A2008#32 = .error .reservedBits := by decide
theorem test_decode_refuses_s_on_inv : decode 0x0002260A#32 = .error .unusedField := by decide
theorem test_decode_refuses_t_on_mvm : decode 0x0002220B#32 = .error .unusedField := by decide
theorem test_decode_refuses_bit31 : decode 0x80000000#32 = .error .reservedBits := by decide

/-- The host's probe: a table row's bits. -/
theorem test_decodeTableWord : decodeTableWord 32 0x00033008 = some (.det 3#3 3#3) := by decide

/-! ### DES -/

/-- V-S-1: S1(011110) = 7 and S8(100000) = 7; row and column from the outer and inner bits. -/
theorem test_sbox1 : sbox 1 0b011110#6 = 7#4 := by decide
theorem test_sbox8 : sbox 8 0b100000#6 = 7#4 := by decide

/-- V-KS-1: all sixteen subkeys of KEY = 133457799BBCDFF1. -/
theorem test_ks : after (exec .ks (loaded [(.keyHi, 0x13345779#32), (.keyLo, 0x9BBCDFF1#32)])) subkeys
    = some subkeysKs1 := by decide +kernel
/-- V-KS-2: position 1 only, SK[1]. -/
theorem test_ks_single_bit : after (exec .ks (loaded [(.keyHi, 0x80000000#32)])) (subkey 1)
    = some 0x004000000000#48 := by decide +kernel

/-- V-F-1, with F_KHI written as 0xFFFF1B02. -/
theorem test_ffunc : after (exec .ffunc (loaded [(.fIn, 0xF0AAF0AA#32), (.fKhi, 0xFFFF1B02#32), (.fKlo, 0xEFFC7072#32)]))
    State.fOut = some 0x234AA9BB#32 := by decide +kernel
/-- V-F-2, third row. -/
theorem test_ffunc_ones_key : after (exec .ffunc (loaded [(.fKhi, 0xFFFF#32), (.fKlo, 0xFFFFFFFF#32)])) State.fOut
    = some 0x38DBF9CB#32 := by decide +kernel

/-- V-R-2, round 1: source and destination are the same pair. -/
theorem test_round : after (exec (.round 1#4) (withSubkeys subkeysKs1 (loaded [(.fl, 0xF0AAF0AA#32), (.fr, 0xEF4A6544#32)])))
    (fun t => (t.fl, t.fr)) = some (0xEF4A6544#32, 0xCC017709#32) := by decide +kernel
/-- V-R-4: all-zero subkey after reset. -/
theorem test_round_zero : after (exec (.round 0#4) State.reset) (fun t => (t.fl, t.fr))
    = some (0#32, 0xD8D8DBBC#32) := by decide +kernel

/-- V-B-1. -/
theorem test_blockEnc :
    after (exec .blockEnc (withSubkeys subkeysKs1 (loaded [(.dinHi, 0x01234567#32), (.dinLo, 0x89ABCDEF#32)]))) doutValue
      = some 0x85E813540F0AB405#64 := by decide +kernel
/-- V-B-5: right after reset. -/
theorem test_blockEnc_reset : after (exec .blockEnc State.reset) doutValue = some 0x8CA64DE9C1B123A7#64 := by decide +kernel
/-- V-B-2. -/
theorem test_blockDec :
    after (exec .blockDec (withSubkeys subkeysKs1 (loaded [(.dinHi, 0x85E81354#32), (.dinLo, 0x0F0AB405#32)]))) doutValue
      = some 0x0123456789ABCDEF#64 := by decide +kernel
/-- V-P-1, V-P-3. -/
theorem test_iperm : after (exec .iperm (loaded [(.dinHi, 0x01234567#32), (.dinLo, 0x89ABCDEF#32)])) doutValue
    = some 0xCC00CCFFF0AAF0AA#64 := by decide +kernel
theorem test_iperm_single_bit : after (exec .iperm (loaded [(.dinHi, 0x80000000#32)])) doutValue
    = some 0x0000000001000000#64 := by decide +kernel
/-- V-P-2, V-P-4. -/
theorem test_fperm : after (exec .fperm (loaded [(.dinHi, 0x0A4CD995#32), (.dinLo, 0x43423234#32)])) doutValue
    = some 0x85E813540F0AB405#64 := by decide +kernel
theorem test_fperm_single_bit : after (exec .fperm (loaded [(.dinLo, 0x00000001#32)])) doutValue
    = some 0x0200000000000000#64 := by decide +kernel

/-! ### Matrix commands -/

def hadamard : List (List Int) :=
  [[-128, -128, -128, -128], [-128, 127, -128, 127], [-128, -128, 127, 127], [-128, 127, 127, -128]]
def matrixK2 : List (List Int) := [[3, 3], [2, 5]]
def matrixK3 : List (List Int) := [[6, 24, 1], [13, 16, 10], [20, 17, 15]]
def matrixK4 : List (List Int) := [[1, 2, 3, 4], [0, 1, 2, 3], [0, 0, 1, 2], [1, 0, 0, 1]]

/-- V-M-12: a determinant above 32 bits. -/
theorem test_det4 : after (exec (.det 4#3 4#3) (withMatrix hadamard)) (fun t => (t.detHi, t.detLo))
    = some (0x00000000#32, 0xFD02FF00#32) := by decide
/-- V-M-5: a negative determinant. -/
theorem test_det3_negative : after (exec (.det 3#3 3#3) (withMatrix [[1, 2, 3], [4, 5, 6], [7, 8, 10]]))
    (fun t => (t.detHi, t.detLo)) = some (0xFFFFFFFF#32, 0xFFFFFFFD#32) := by decide
/-- V-M-17, V-E-14. -/
theorem test_det_shape : after (exec (.det 2#3 3#3) State.reset) statusOf = some 0x26#32 := by decide

/-- V-M-18, middle row. -/
theorem test_adj3 : after (exec (.adj 3#3 3#3) (withMatrix matrixK3)) (mrRow 1) = some [5, 70, -47, 0] := by decide
/-- V-M-21. -/
theorem test_adj1 : after (exec (.adj 1#3 1#3) (withMatrix [[77]])) (mrRow 0) = some [1, 0, 0, 0] := by decide
/-- V-M-2t. -/
theorem test_adjT2 : after (exec (.adjT 2#3 2#3) (withMatrix matrixK2)) (mrRow 0) = some [5, -2, 0, 0] := by decide

/-- V-M-6. -/
theorem test_inv3 : after (exec (.inv 3#3 3#3) (withMatrix matrixK3)) (fun t => (detValue t, t.dinv, mrRow 1 t))
    = some (441, 25#5, [21, 8, 21, 0]) := by decide
/-- V-M-25, first row. -/
theorem test_inv4 : after (exec (.inv 4#3 4#3) (withMatrix matrixK4)) (mrRow 0) = some [1, 24, 1, 0] := by decide
/-- V-M-6t. -/
theorem test_invT3 : after (exec (.invT 3#3 3#3) (withMatrix matrixK3)) (mrRow 0) = some [8, 21, 21, 0] := by decide
/-- V-M-31: the pre-check comes first; V-M-10. -/
theorem test_inv_zero_diagonal : after (exec (.inv 2#3 2#3) (withMatrix [[0, 2], [2, 0]])) statusOf = some 0x36#32 := by decide
theorem test_inv_singular : after (exec (.inv 2#3 2#3) (withMatrix [[1, 2], [2, 4]])) (fun t => (statusOf t, t.detLo))
    = some (0x46#32, 0#32) := by decide

/-- V-H-3, V-H-8. -/
theorem test_mvm : after (exec (.mvm 2#3 2#3) (withVector [11, 11] (withMatrix matrixK2))) voutOf = some [14, 25, 0, 0] := by decide
theorem test_mvm_negative : after (exec (.mvm 2#3 2#3) (withVector [-128, -128] (withMatrix matrixK2))) voutOf
    = some [12, 14, 0, 0] := by decide
/-- V-H-2. -/
theorem test_vmm : after (exec (.vmm 2#3 2#3) (withVector [7, 4] (withMatrix matrixK2))) voutOf = some [3, 15, 0, 0] := by decide

/-- The state after a command, or reset if it stops. -/
def stateAfter (o : StepOutcome) : State := (after o fun t => t).getD State.reset

/-- V-H-15: the adjugate as operand. -/
theorem test_mvmS : after (exec (.mvmS 2#3 2#3) (withVector [7, 8] (stateAfter (exec (.adj 2#3 2#3) (withMatrix matrixK2)))))
    voutOf = some [11, 10, 0, 0] := by decide
/-- V-H-13 and V-H-14. -/
theorem test_vmmS : after (exec (.vmmS 2#3 2#3) (withVector [7, 8] (stateAfter (exec (.invT 2#3 2#3) (withMatrix matrixK2)))))
    voutOf = some [7, 4, 0, 0] := by decide
theorem test_vmmS_wrong_orientation :
    after (exec (.vmmS 2#3 2#3) (withVector [7, 8] (stateAfter (exec (.inv 2#3 2#3) (withMatrix matrixK2)))))
      voutOf = some [5, 9, 0, 0] := by decide

/-! ### Registers, bus and status (V-ST, V-C-1) -/

/-- A write and a read as transfers. -/
def wr (off : Offset) (v : Word) : Transfer := { paddr := off, pwrite := true, pwdata := v, pstrb := 0b1111#4 }
def rd (off : Offset) : Transfer := { paddr := off, pwrite := false, pwdata := 0#32, pstrb := 0#4 }

/-- Reset with a command accepted. -/
def busyState : State := accept 0x00033008#32 State.reset

/-- V-C-1: NOP as the first command after reset. -/
theorem test_step_nop : after (step (State.reset.withFetchWord 32 0)) statusOf = some 0x2#32 := by decide
/-- V-E-3 as a step. -/
theorem test_step_illegal : after (step (State.reset.withFetchWord 32 7)) (fun t => (statusOf t, t.cmd)) = some (0x16#32, 7#32) := by decide
/-- V-ST-1, V-ST-24. -/
theorem test_read_id : after (busTransfer (rd 0x000#12) State.reset) State.prdata = some 0x43544342#32 := by decide
theorem test_read_reserved : after (busTransfer (rd 0xFFC#12) State.reset) State.prdata = some 0#32 := by decide
/-- V-ST-2: acceptance keeps OVERRUN. -/
theorem test_accept_keeps_overrun : after (busTransfer (wr 0x00C#12 0#32) (dropWrite State.reset)) statusOf = some 0x101#32 := by decide
/-- V-ST-3, 4, 5, 18, 19. -/
theorem test_busy_cmd_dropped : after (busTransfer (wr 0x00C#12 1#32) busyState) (fun t => (statusOf t, t.cmd)) = some (0x101#32, 0x00033008#32) := by decide
theorem test_busy_ma_dropped : after (busTransfer (wr 0x100#12 5#32) busyState) (fun t => (statusOf t, readReg (.ma 0 0) t)) = some (0x101#32, 0#32) := by decide
theorem test_busy_reserved_ignored : after (busTransfer (wr 0x010#12 5#32) busyState) statusOf = some 0x1#32 := by decide
theorem test_busy_ro_dropped : after (busTransfer (wr 0x054#12 5#32) busyState) statusOf = some 0x101#32 := by decide
theorem test_busy_id_ignored : after (busTransfer (wr 0x000#12 5#32) busyState) statusOf = some 0x1#32 := by decide
/-- V-ST-6: STATUS is read as it stands while BUSY. -/
theorem test_busy_read_status : after (busTransfer (rd 0x008#12) busyState) State.prdata = some 0x1#32 := by decide
/-- V-ST-7, 8, 9. -/
def overrunFailedState : State := completeWith 3#4 (dropWrite State.reset)
theorem test_status_clear_err : after (busTransfer (wr 0x008#12 4#32) overrunFailedState) statusOf = some 0x102#32 := by decide
theorem test_status_clear_all : after (busTransfer (wr 0x008#12 0xFFFFFFFF#32) overrunFailedState) statusOf = some 0#32 := by decide
theorem test_status_never_sets : after (busTransfer (wr 0x008#12 0xFFFFFFFF#32) State.reset) statusOf = some 0#32 := by decide
/-- V-ST-10, 11: IRQ follows IE and DONE. -/
theorem test_irq_rises : after (busTransfer (wr 0x004#12 1#32) overrunFailedState) irq = some true := by decide
theorem test_irq_needs_enable : irq overrunFailedState = false := by decide
/-- V-ST-12, 13. -/
theorem test_soft_reset : after (busTransfer (wr 0x004#12 3#32) busyState) (fun t => t) = some State.reset := by decide
theorem test_ctrl_reads_ie : after (busTransfer (wr 0x004#12 0xFFFFFFFD#32) State.reset) (readReg .ctrl) = some 1#32 := by decide
/-- V-ST-14, 15, 16, 17. -/
theorem test_fkhi_width : after (busTransfer (wr 0x064#12 0xFFFFFFFF#32) State.reset) (readReg .fKhi) = some 0xFFFF#32 := by decide
theorem test_ma_sign : after (busTransfer (wr 0x124#12 0xFF#32) State.reset) (readReg (.ma 2 1)) = some 0xFFFFFFFF#32 := by decide
theorem test_vin_sign : after (busTransfer (wr 0x140#12 0x12345680#32) State.reset) (readReg (.vin 0)) = some 0xFFFFFF80#32 := by decide
theorem test_dout_write_ignored : after (busTransfer (wr 0x054#12 5#32) State.reset) (fun t => t) = some State.reset := by decide
/-- V-ST-20. -/
theorem test_refused : pslverr (rd 0x042#12) = true ∧ responseData (rd 0x042#12) State.reset = 0#32 := by decide
theorem test_narrow_write_refused : accepted { wr 0x040#12 5#32 with pstrb := 0b0001#4 } = false := by decide
/-- 60_exceptions.md R270 with R300: RST_N low resets and IRQ falls. -/
theorem test_hard_reset : after (handleEvent (.rstN false) overrunFailedState) (fun t => (statusOf t, t.rstN, irq t)) = some (0#32, false, false) := by decide
/-- 70_reset_and_hazards.md R300: while RST_N is low a write is ignored. -/
theorem test_held_in_reset : after (handleEvent (.bus (wr 0x040#12 5#32)) { State.reset with rstN := false }) (readReg .keyHi) = some 0#32 := by decide

/-! ### Switches -/

/-- U8: STRICT_DECODE faults on a reserved offset. -/
theorem test_strict : after (busTransfer (rd 0x010#12) { State.reset with cfg := { Config.defaultSwitches with strictDecode := true } }) State.prdata
    = none := by decide
/-- U9: FAULT_ON_UNWRITTEN faults on an operand not written since reset. -/
theorem test_unwritten : after (exec .ks { State.reset with cfg := { Config.defaultSwitches with faultOnUnwritten := true } }) statusOf
    = none := by decide
theorem test_written : after (exec .iperm { loaded [(.dinHi, 0#32), (.dinLo, 0#32)] with cfg := { Config.defaultSwitches with faultOnUnwritten := true } })
    statusOf = some 2#32 := by decide

/-! ### Register map and host statements -/

/-- 10_state.md R21: the last element of each array. -/
theorem test_offsets : (regAt 0x0FC#12, regAt 0x13C#12, regAt 0x15C#12, regAt 0x168#12, regAt 0x1BC#12, regAt 0x1C0#12)
    = (some (.skLo 15), some (.ma 3 3), some (.vout 3), some .dinv, some (.mr 3 3), none) := by decide

/-- 30_encoding.md R102: `ack` writes 0x106. -/
theorem test_ack : stmtEvents .ack = [.bus (wr 0x008#12 0x106#32)] := by decide
/-- 30_encoding.md R103: hill.dec 2. -/
theorem test_hill_dec : programEvents (expand 0 (.hillDec 2#3)) = [.bus (wr 0x00C#12 0x0002240C#32), .engine, .bus (rd 0x008#12)] := by decide

/-- 95_test_vectors.md P5: a write after `det 3`, before and after the completion. -/
def programP5 : List HostStmt := [.cmd (.det 3#3 3#3), .wr (.ma 0 0) 99#32, .wait 0]
theorem test_p5_write_first : (programEvents programP5).take 3 =
    [.bus (wr 0x00C#12 0x00033008#32), .bus (wr 0x100#12 99#32), .engine] := by decide
theorem test_p5_completion_first : (completeAfter 1 (programEvents programP5)).take 3 =
    [.bus (wr 0x00C#12 0x00033008#32), .engine, .bus (wr 0x100#12 99#32)] := by decide

/-- 30_encoding.md R100, R101: inv.t 2, in mixed case, and a raw word. -/
theorem test_assemble : assemble "Inv.T 2".toList = some 0x0002220A#32 := by decide
theorem test_assemble_round : assemble "round 15".toList = some 0x000000F3#32 := by decide
theorem test_assemble_raw : assemble ".word 0x80000000".toList = some 0x80000000#32 := by decide
theorem test_assemble_refuses : assemble "round 16".toList = none := by decide
theorem test_disassemble : disassemble 0x00033008#32 = "det 3x3".toList := by decide
theorem test_disassemble_raw : disassemble 0x0000000D#32 = ".word 0x0000000D".toList := by decide

/-! ### Witnesses: for each statement with hypotheses, a state and operands that meet them all, and one for
each clause at the edge of its range. A state is built by the helpers above. -/

/-- Reset with some events pending. -/
def pending (es : List Event) (s : State) : State := { s with events := es }

/-- Reset with the switch FAULT_ON_UNWRITTEN on, after host writes. -/
def strictLoaded (writes : List (Reg × Word)) : State :=
  { loaded writes with cfg := { Config.defaultSwitches with faultOnUnwritten := true } }

theorem witness_DecodeOfEncode : (Instr.mvmS 4#3 1#3).wellFormed = true := by decide
theorem witness_EncodeOfDecode : decode 0x0004400C#32 = .ok (.vmm 4#3 4#3) := by decide
theorem witness_AssembleOfDisassemble :
    decode 0x000000F3#32 = .ok (.round 15#4) ∧ decode 0xFFFFFFFF#32 = .error .reservedBits := by decide
theorem witness_StepRunsDecodedCommand :
    running busyState ∧ busyState.status.busy = true ∧ decode busyState.cmd = .ok (.det 3#3 3#3) ∧
      busyState.events = [] ∧ (pending [.engine] busyState).events = [.engine] ∧
      decodeTableWord 32 0x000000F3 = some (.round 15#4) := by decide
theorem witness_IllegalWordCompletes :
    running (accept 7#32 State.reset) ∧ (accept 7#32 State.reset).status.busy = true ∧
      decode (accept 7#32 State.reset).cmd = .error .reservedOpcode ∧ (accept 7#32 State.reset).events = [] ∧
      (pending [.engine] (accept 7#32 State.reset)).events = [.engine] := by decide
theorem witness_CommandWordAccepted :
    running (pending [writeEvent .cmd 0xFFFFFFFF#32] State.reset) ∧
      (pending [writeEvent .cmd 0xFFFFFFFF#32] State.reset).status.busy = false := by decide
theorem witness_AcceptedCommandCompletes :
    running busyState ∧ busyState.status.busy = true ∧ engineNext busyState ∧
      ∀ i, decode busyState.cmd = .ok i → operandsReady (operandRegs i) busyState = true :=
  ⟨by decide, rfl, .inl rfl, fun _ _ => rfl⟩
theorem witness_CompletionFrame :
    exec .nop State.reset = .next (failedState 0#4 State.reset) ∧
      exec (.det 2#3 3#3) State.reset = .next (failedState 2#4 State.reset) := ⟨rfl, rfl⟩
theorem witness_ResultsDependOnOperandsOnly :
    (∀ r ∈ operandRegs .iperm, readReg r State.reset = readReg r (loaded [(.keyHi, 1#32)])) ∧
      (after (exec .iperm State.reset) fun _ => true) = some true ∧
      operandsReady (operandRegs .iperm) (loaded [(.keyHi, 1#32)]) = true := by decide
theorem witness_UnwrittenOperandFaults :
    (Instr.det 1#3 1#3).wellFormed = true ∧ (∀ n m, (Instr.det 1#3 1#3).dims = some (n, m) → n = m) ∧
      exec (.det 1#3 1#3) (strictLoaded []) = .fault .unwrittenOperand ∧
      (after (exec (.det 1#3 1#3) (strictLoaded [(.ma 0 0, 7#32)])) fun _ => true) = some true :=
  ⟨by decide, by intro n m h; cases h; rfl, rfl, by decide⟩
theorem witness_RegisterMapIsBijective :
    regAt 0x1BC#12 = some (.mr 3 3) ∧ (0x1C0#12).toNat ≥ 0x1C0 := by decide
theorem witness_HostAddressesReachTheWindow :
    Config.ctcbBase + 4096 ≤ Config.ctcbBase + 4096 := Nat.le_refl _
theorem witness_RefusedAccessFaults :
    running (pending [.bus (rd 0x042#12)] State.reset) ∧
      ¬ ((rd 0x042#12).paddr.extractLsb' 0 2 = 0#2 ∧ ((rd 0x042#12).pwrite = true → (rd 0x042#12).pstrb = 0b1111#4)) ∧
      ¬ ((0x040#12).extractLsb' 0 2 = 0#2 ∧ (true = true → 0b0111#4 = 0b1111#4)) := by decide
theorem witness_ReservedOffsetAccess :
    running (pending [.bus (wr 0x010#12 1#32)] State.reset) ∧ accepted (wr 0x010#12 1#32) = true ∧
      regAt (wr 0x010#12 1#32).paddr = none ∧ accepted (rd 0xFFC#12) = true ∧ regAt (rd 0xFFC#12).paddr = none ∧
      State.reset.cfg.strictDecode = false := by decide
theorem witness_ReadAnswersAndChangesNothing :
    running (pending [.bus (rd 0x040#12)] busyState) ∧ accepted (rd 0x040#12) = true ∧
      regAt (rd 0x040#12).paddr = some .keyHi ∧ (busyState.status.busy = true ∧ 0x040 ≤ (rd 0x040#12).paddr.toNat) ∧
      regAt (rd 0x00C#12).paddr = some .cmd ∧ ¬ 0x040 ≤ (rd 0x00C#12).paddr.toNat := by decide
theorem witness_WriteThenReadReturnsField :
    running (pending [writeEvent (.ma 3 3) 0x80#32, readEvent (.ma 3 3)] State.reset) ∧
      State.reset.status.busy = false ∧ hostWritable (.ma 3 3) = true ∧ hostWritable (.skHi 15) = true := by decide
theorem witness_ReadOnlyWritesIgnored :
    running (pending [writeEvent (.mr 3 3) 1#32] busyState) ∧ busyState.status.busy = true ∧
      running (pending [writeEvent .id 1#32] busyState) ∧ State.reset.status.busy = false := by decide
theorem witness_WritesWhileBusyAreDropped :
    running (pending [.bus (wr 0x040#12 1#32)] busyState) ∧ busyState.status.busy = true ∧
      regAt 0x040#12 = some .keyHi ∧ regAt 0x1BC#12 = some (.mr 3 3) ∧ regAt 0x00C#12 = some .cmd ∧
      regAt 0x000#12 = some .id ∧ regAt 0x008#12 = some .status ∧ regAt 0x004#12 = some .ctrl ∧
      (0x03C#12).extractLsb' 0 2 = 0#2 ∧ regAt 0x03C#12 = none ∧ busyState.cfg.strictDecode = false := by decide
theorem witness_StatusWriteClearsSelectedBits :
    running (pending [writeEvent .status 0x106#32] overrunFailedState) := by decide
theorem witness_ControlWriteSetsEnableOrResets :
    running (pending [writeEvent .ctrl 3#32] busyState) ∧ (3#32).getLsbD 1 = true ∧ (1#32).getLsbD 1 = false := by decide
theorem witness_ResetValues :
    resetNext (pending [writeEvent .ctrl 2#32] busyState) ∧ resetNext (pending [.rstN false] busyState) ∧
      resetNext { busyState with rstN := false } ∧ statusOk busyState.status = true :=
  ⟨.inr (.inr ⟨2#32, [], rfl, by decide⟩), .inr (.inl ⟨[], rfl⟩), .inl rfl, by decide⟩
theorem witness_HeldInReset :
    statusOk ({ State.reset with rstN := false, events := [.rstN true] } : State).status = true ∧
      ({ State.reset with rstN := false, events := [.bus (rd 0x040#12)] } : State).rstN = false := by decide
theorem witness_InterruptLine :
    running (pending [writeEvent .status 2#32] overrunFailedState) ∧ (2#32).getLsbD 1 = true ∧
      running (pending [writeEvent .ctrl 1#32] overrunFailedState) ∧ (1#32).getLsbD 1 = false ∧
      running (pending [writeEvent .cmd 0#32] overrunFailedState) ∧ overrunFailedState.status.busy = false := by decide
theorem witness_CompletionAndWriteEitherOrder :
    running (pending [.engine, writeEvent .cmd 1#32] busyState) ∧ busyState.status.busy = true ∧
      (after (step (pending [.engine, writeEvent .cmd 1#32] busyState)) fun _ => true) = some true ∧
      running (pending [writeEvent .cmd 1#32, .engine] busyState) := by decide

/-- The invariant holds in a state that no run from reset has to reach: host data in MA and VOUT at 25. -/
theorem witness_StepKeepsInvariant :
    statusOk (completeWith 0#4 (loaded [(.keyHi, 5#32)])).status = true ∧
      (after (step (pending [readEvent .keyHi] (loaded [(.keyHi, 5#32)]))) State.prdata) = some 5#32 := by decide
theorem witness_StatusRulesHoldAndAreEnforced :
    (after (step State.reset) statusOf) = some 0#32 ∧
      ¬ (({ Status.reset with errcode := 5#4 } : Status).err = true ↔
        ({ Status.reset with errcode := 5#4 } : Status).errcode ≠ 0#4) := by decide
theorem witness_NoImpossibleStop : statusOk (completeWith 4#4 State.reset).status = true := by decide
theorem witness_OverrunAndBusyEndOnlyAsStated :
    (after (step (pending [writeEvent .status 0x100#32] overrunFailedState)) fun t => t.status.overrun) = some false ∧
      overrunFailedState.status.overrun = true ∧
      (after (step busyState) fun t => t.status.busy) = some false ∧ busyState.status.busy = true := by decide
theorem witness_CommandInFlightIsStable :
    (after (step (pending [writeEvent .keyHi 1#32] busyState)) fun t => t.status.busy) = some true := by decide
theorem witness_ResultLifetime :
    (after (step (accept 0x00011008#32 (loaded [(.ma 0 0, 7#32)]))) (readReg .detLo)) = some 7#32 ∧
      readReg .detLo (accept 0x00011008#32 (loaded [(.ma 0 0, 7#32)])) = 0#32 ∧
      isControl .detLo = false ∧ hostWritable .detLo = false := by decide
theorem witness_PermuteTakesTablePositions : (∀ k ∈ [4, 1, 1], 1 ≤ k ∧ k ≤ 4) ∧ 2 < [4, 1, 1].length := by decide
theorem witness_RoundFunctionBitByBit : (1 ≤ 32) ∧ (32 ≤ 32) := by decide
/-- Parity bits only (V-KS-2). -/
theorem witness_ParityPositionsHaveNoEffect :
    ∀ i : Fin 65, 1 ≤ i.val → i.val ≤ 64 → i.val % 8 ≠ 0 →
      position 0x0101010101010101#64 i.val = position 0#64 i.val := by decide

/-- Reset with the switch FAULT_ON_UNWRITTEN on, and the registers `rs` written since reset. -/
def strictWritten (rs : List Reg) : State :=
  { State.reset with cfg := { Config.defaultSwitches with faultOnUnwritten := true }, written := rs }

/-- An operand list whose registers have all been written is ready. -/
theorem strictWritten_ready (rs : List Reg) : operandsReady rs (strictWritten rs) = true := by
  simp [operandsReady, strictWritten]

theorem witness_KsWritesSubkeyFile : operandsReady keyRegs (strictWritten keyRegs) = true := strictWritten_ready _
theorem witness_FfuncComputesRoundFunction : operandsReady ffuncRegs (strictWritten ffuncRegs) = true := strictWritten_ready _
theorem witness_RoundUpdatesFeistelPair :
    operandsReady (.fl :: .fr :: subkeyRegs (15#4).toFin) (strictWritten (.fl :: .fr :: subkeyRegs (15#4).toFin)) = true :=
  strictWritten_ready _
theorem witness_RoundIsUndoneBySwapping :
    operandsReady (.fl :: .fr :: subkeyRegs (0#4).toFin) (strictWritten (.fl :: .fr :: subkeyRegs (0#4).toFin)) = true :=
  strictWritten_ready _
theorem witness_BlockTransformsDin :
    operandsReady (dinRegs ++ skRegs) (strictWritten (dinRegs ++ skRegs)) = true := strictWritten_ready _
theorem witness_PermutationCommandsMoveBits : operandsReady dinRegs (strictWritten dinRegs) = true := strictWritten_ready _
theorem witness_BlockRoundTrip : operandsReady (dinRegs ++ skRegs) State.reset = true := by decide
theorem witness_BlockEqualsSixteenRounds : operandsReady (dinRegs ++ skRegs) State.reset = true := by decide

theorem witness_ShapeMismatchFails :
    dimOk 4#3 1#3 = true ∧ (4#3 ≠ 1#3) ∧ Instr.vmmS 4#3 1#3 ∈ matrixCommands 4#3 1#3 := by decide
theorem witness_AdjugateTimesMatrix : (0 < 4) ∧ (3 < 4) := by decide
theorem witness_LeastModularInverse :
    Int.gcd (-5) 26 = 1 ∧ Int.gcd 0 26 ≠ 1 ∧ Int.gcd 13 26 ≠ 1 ∧ (-5 : Int) % 26 = 21 := by decide

/-- K2 in MA and a vector in VIN, with the switch on and just these operands written. -/
def hillOperands : State :=
  { withVector [7, 25] (withMatrix matrixK2) with cfg := { Config.defaultSwitches with faultOnUnwritten := true } }
theorem witness_DetStoresExactDeterminant :
    dimOk 2#3 2#3 = true ∧ operandsReady (maRegs (2#3).toNat) hillOperands = true := by decide
theorem witness_AdjStoresExactAdjugate :
    dimOk 4#3 4#3 = true ∧ operandsReady (maRegs (4#3).toNat) (withMatrix hadamard) = true := by decide
theorem witness_InvWritesInverse :
    dimOk 2#3 2#3 = true ∧ operandsReady (maRegs (2#3).toNat) hillOperands = true ∧
      (∀ i : Fin 2, maEntry hillOperands i.val i.val ≠ 0) ∧
      Int.gcd (matDet (2#3).toNat (maEntry hillOperands)) 26 = 1 := by decide
theorem witness_InvIsTrueModularInverse :
    dimOk 4#3 4#3 = true ∧ (∀ i : Fin 4, maEntry (withMatrix [[1, 0, 0, 0], [0, 1, 0, 0], [0, 0, 1, 0], [0, 0, 0, 1]]) i.val i.val ≠ 0) ∧
      Int.gcd (matDet 4 (maEntry (withMatrix [[1, 0, 0, 0], [0, 1, 0, 0], [0, 0, 1, 0], [0, 0, 0, 1]]))) 26 = 1 := by decide
theorem witness_InvErrorsInOrder :
    operandsReady (maRegs (2#3).toNat) (withMatrix [[0, 1], [1, 0]]) = true ∧
      maEntry (withMatrix [[0, 1], [1, 0]]) 0 0 = 0 ∧
      (∀ k : Fin 2, maEntry (withMatrix [[1, 2], [2, 4]]) k.val k.val ≠ 0) ∧
      Int.gcd (matDet 2 (maEntry (withMatrix [[1, 2], [2, 4]]))) 26 ≠ 1 := by decide
theorem witness_MvmMultipliesColumnVector :
    dimOk 2#3 2#3 = true ∧ operandsReady (maRegs (2#3).toNat ++ vinRegs (2#3).toNat) hillOperands = true ∧
      operandsReady (mrRegs (2#3).toNat ++ vinRegs (2#3).toNat) (stateAfter (exec (.adj 2#3 2#3) hillOperands)) = true := by decide
theorem witness_VmmMultipliesRowVector :
    dimOk 1#3 1#3 = true ∧ operandsReady (maRegs (1#3).toNat ++ vinRegs (1#3).toNat) hillOperands = true ∧
      operandsReady (mrRegs (1#3).toNat ++ vinRegs (1#3).toNat) (stateAfter (exec (.invT 2#3 2#3) hillOperands)) = true := by decide
theorem witness_HillProductIsLinear :
    ∀ k : Fin 2, ((fun _ _ => 27) : IntMatrix) 0 k.val % 26 = ((fun _ _ => 1) : IntMatrix) 0 k.val % 26 ∧
      (26 : Int) % 26 = 0 % 26 := by decide
theorem witness_HillRoundTrip :
    dimOk 2#3 2#3 = true ∧ operandsReady (maRegs (2#3).toNat ++ vinRegs (2#3).toNat) hillOperands = true ∧
      (∀ i : Fin 2, maEntry hillOperands i.val i.val ≠ 0) ∧
      Int.gcd (matDet (2#3).toNat (maEntry hillOperands)) 26 = 1 ∧
      ∀ j : Fin 2, 0 ≤ vinEntry hillOperands j.val ∧ vinEntry hillOperands j.val ≤ 25 := by decide

end Sys2Proof.Tests
end

section
/-! PROOFS. Where a platform address meets the window (00_scope.md R4; 20_memory.md R60). -/

namespace Sys2Proof.Machine

/-- The window holds one address for each of the 4096 offsets. -/
@[simp] theorem windowOffset_base_add (off : Offset) :
    windowOffset (Config.ctcbBase + off.toNat) = some off := by
  have inWindow : Config.ctcbBase ≤ Config.ctcbBase + off.toNat ∧
      Config.ctcbBase + off.toNat < Config.ctcbBase + 4096 :=
    ⟨Nat.le_add_right _ _, Nat.add_lt_add_left off.isLt _⟩
  rw [windowOffset, if_pos inWindow, Nat.add_sub_cancel_left, BitVec.ofNat_toNat, BitVec.setWidth_eq]

theorem windowOffset_eq_none_iff (addr : Nat) :
    windowOffset addr = none ↔ addr < Config.ctcbBase ∨ Config.ctcbBase + 4096 ≤ addr := by
  simp only [windowOffset, ite_eq_right_iff, reduceCtorEq, imp_false, not_and_or, not_le, not_lt]

theorem hostRead_of_windowOffset {addr : Nat} {off : Offset} (h : windowOffset addr = some off) :
    hostRead addr = some { paddr := off, pwrite := false, pwdata := 0#32, pstrb := 0#4 } := by
  rw [hostRead, h, Option.map_some]

theorem hostWrite_of_windowOffset {addr : Nat} {off : Offset} (w : Word)
    (h : windowOffset addr = some off) :
    hostWrite addr w = some { paddr := off, pwrite := true, pwdata := w, pstrb := 0b1111#4 } := by
  rw [hostWrite, h, Option.map_some]

theorem hostRead_eq_none_iff (addr : Nat) : hostRead addr = none ↔ windowOffset addr = none :=
  Option.map_eq_none_iff

theorem hostWrite_eq_none_iff (addr : Nat) (w : Word) :
    hostWrite addr w = none ↔ windowOffset addr = none :=
  Option.map_eq_none_iff

/-- Settles O14: both host accesses go through `windowOffset`, which inverts `CTCB_BASE + off` inside the
window and answers none outside it; the base is a multiple of 4096 by construction. -/
theorem hostAddressesReachTheWindow : Obligations.HostAddressesReachTheWindow := by
  refine ⟨Nat.mul_mod_right 4096 Config.basePage, fun off w => ?inside, fun addr w outside => ?outside⟩
  case inside =>
    have reached := windowOffset_base_add off
    exact ⟨hostRead_of_windowOffset reached, hostWrite_of_windowOffset w reached⟩
  case outside =>
    have missed : windowOffset addr = none := (windowOffset_eq_none_iff addr).mpr outside
    exact ⟨(hostRead_eq_none_iff addr).mpr missed, (hostWrite_eq_none_iff addr w).mpr missed⟩

end Sys2Proof.Machine
end

section
/-! PROOFS. What a host write, a reset and a step do to the registers, each said once (10_state.md R23-R27,
R42, R45; 20_memory.md R71; 60_exceptions.md R271). -/

namespace Sys2Proof.Machine

@[simp] theorem storeField_status (r : Reg) (w : Word) (s : State) : (storeField r w s).status = s.status := by
  cases r <;> rfl

@[simp] theorem storeField_written (r : Reg) (w : Word) (s : State) : (storeField r w s).written = s.written := by
  cases r <;> rfl

theorem writeCtrl_of_srst {w : Word} (h : w.getLsbD 1 = true) (s : State) : writeCtrl w s = blockReset s := if_pos h

theorem writeCtrl_of_not_srst {w : Word} (h : w.getLsbD 1 = false) (s : State) :
    writeCtrl w s = { s with ie := w.getLsbD 0 } := if_neg (Bool.eq_false_iff.mp h)

theorem writeCmd_of_idle (w : Word) {s : State} (h : s.status.busy = false) : writeCmd w s = accept w s :=
  if_neg (Bool.eq_false_iff.mp h)

theorem writeCmd_of_busy (w : Word) {s : State} (h : s.status.busy = true) : writeCmd w s = dropWrite s := if_pos h

theorem regWrite_of_not_control {r : Reg} (h : isControl r = false) (w : Word) (s : State) :
    regWrite r w s = writeOperand r w s := by
  cases r <;> first | contradiction | rfl

theorem writeOperand_of_busy (r : Reg) (w : Word) {s : State} (h : s.status.busy = true) :
    writeOperand r w s = dropWrite s := if_pos h

theorem writeOperand_of_idle (r : Reg) (w : Word) {s : State} (h : s.status.busy = false) :
    writeOperand r w s = if hostWritable r then markWritten [r] (storeField r w s) else s :=
  if_neg (Bool.eq_false_iff.mp h)

theorem writeOperand_cases (r : Reg) (w : Word) (s : State) :
    writeOperand r w s = s ∨ writeOperand r w s = dropWrite s ∨
    (hostWritable r = true ∧ writeOperand r w s = markWritten [r] (storeField r w s)) := by
  by_cases busy : s.status.busy = true
  · exact .inr (.inl (writeOperand_of_busy r w busy))
  · rw [writeOperand_of_idle r w (Bool.eq_false_iff.mpr busy)]
    by_cases writable : hostWritable r = true
    · exact .inr (.inr ⟨writable, if_pos writable⟩)
    · exact .inl (if_neg writable)

/-- What a host write of a register can do (20_memory.md R71). -/
theorem regWrite_cases (r : Reg) (w : Word) (s : State) :
    regWrite r w s = s ∨ regWrite r w s = blockReset s ∨ regWrite r w s = { s with ie := w.getLsbD 0 } ∨
    regWrite r w s = { s with status := statusWrite w s.status } ∨ regWrite r w s = accept w s ∨
    regWrite r w s = dropWrite s ∨
    (hostWritable r = true ∧ regWrite r w s = markWritten [r] (storeField r w s)) := by
  cases r with
  | id => exact .inl rfl
  | ctrl =>
    by_cases srst : w.getLsbD 1 = true
    · exact .inr (.inl (writeCtrl_of_srst srst s))
    · exact .inr (.inr (.inl (writeCtrl_of_not_srst (Bool.eq_false_iff.mpr srst) s)))
  | status => exact .inr (.inr (.inr (.inl rfl)))
  | cmd =>
    by_cases busy : s.status.busy = true
    · exact .inr (.inr (.inr (.inr (.inr (.inl (writeCmd_of_busy w busy))))))
    · exact .inr (.inr (.inr (.inr (.inl (writeCmd_of_idle w (Bool.eq_false_iff.mpr busy))))))
  | _ =>
    rw [regWrite_of_not_control rfl]
    exact (writeOperand_cases _ w s).imp_right fun h => .inr (.inr (.inr (.inr h)))

/-- Every register of `t` holds its reset value, and the block is idle (10_state.md R45). -/
def wasReset (t : State) : Prop := atReset t ∧ t.status = Status.reset

theorem wasReset_blockReset (s : State) : wasReset (blockReset s) :=
  ⟨⟨fun r => readReg_blockReset r s, rfl, rfl⟩, rfl⟩

/-- The pin and the port's data are no registers (70_reset_and_hazards.md R300). -/
theorem wasReset.setPins {s : State} (h : wasReset s) (level : Bool) (word : Word) :
    wasReset { s with rstN := level, prdata := word } := by
  obtain ⟨⟨reads, written, line⟩, status⟩ := h
  exact ⟨⟨fun r => by rw [← reads r]; cases r <;> rfl, written, line⟩, status⟩

theorem setRstN_cases (level : Bool) (s : State) :
    (level = true ∧ s.rstN = true ∧ setRstN level s = s) ∨ wasReset (setRstN level s) := by
  by_cases held : level = true ∧ s.rstN = true
  · exact .inl ⟨held.1, held.2, by simp [setRstN, held]⟩
  · have released : setRstN level s = { blockReset s with rstN := level } := by
      simpa [setRstN] using fun h h' => absurd ⟨h, h'⟩ held
    exact .inr (released ▸ (wasReset_blockReset s).setPins level s.prdata)

theorem wasReset_heldInReset {s : State} (low : s.rstN = false) (e : Event) : wasReset (heldInReset e s) := by
  cases e with
  | bus t =>
    simp only [heldInReset]
    split
    · exact wasReset_blockReset s
    · exact (wasReset_blockReset s).setPins s.rstN 0#32
  | engine => exact wasReset_blockReset s
  | rstN level =>
    rcases setRstN_cases level s with ⟨-, high, -⟩ | h
    · simp [low] at high
    · exact h

/-- Every register at an offset from 0x040 reads as before, and the same registers count as written. -/
def registersKept (s t : State) : Prop :=
  t.written = s.written ∧ ∀ r : Reg, isControl r = false → readReg r t = readReg r s

theorem registersKept_of_control {s : State} (ie : Bool) (status : Status) (cmd prdata : Word) (drawCount : Nat)
    (events : List Event) : registersKept s { s with ie, status, cmd, prdata, drawCount, events } :=
  ⟨rfl, fun r _ => by cases r <;> first | contradiction | rfl⟩

/-- What an event can leave of the registers from 0x040 on: their reset values, the values from before, one
host-writable field stored, or the results of a successful command. -/
def registerOutcome (s t : State) : Prop :=
  wasReset t ∨ registersKept s t ∨
    (∃ r w, hostWritable r = true ∧ t = markWritten [r] (storeField r w s)) ∨
    ∃ i, t = completeWith 0#4 (resultState i s)

theorem registerOutcome_regWrite (r : Reg) (w : Word) (s : State) : registerOutcome s (regWrite r w s) := by
  rcases regWrite_cases r w s with h | h | h | h | h | h | ⟨writable, h⟩ <;> rw [h]
  case inr.inl => exact .inl (wasReset_blockReset s)
  case inr.inr.inr.inr.inr.inr => exact .inr (.inr (.inl ⟨r, w, writable, rfl⟩))
  all_goals exact .inr (.inl (registersKept_of_control _ _ _ _ _ _))

theorem registerOutcome_busTransfer {b : Transfer} {s t : State} (h : busTransfer b s = .next t) :
    registerOutcome s t := by
  rcases busTransfer_next h with ⟨-, ⟨-, -, rfl⟩ | ⟨r, -, rfl⟩⟩ <;> split
  · exact .inr (.inl (registersKept_of_control _ _ _ _ _ _))
  · exact .inr (.inl (registersKept_of_control _ _ _ _ _ _))
  · exact registerOutcome_regWrite r b.pwdata s
  · exact .inr (.inl (registersKept_of_control _ _ _ _ _ _))

theorem registerOutcome_completion {s t : State} (h : completion s = .next t) : registerOutcome s t := by
  rcases completion_next h with ⟨-, rfl⟩ | ⟨i, -, hi⟩
  · exact .inr (.inl (registersKept_of_control _ _ _ _ _ _))
  · rcases exec_next hi with ⟨e, rfl⟩ | ⟨-, rfl⟩
    · exact .inr (.inl (registersKept_of_control _ _ _ _ _ _))
    · exact .inr (.inr (.inr ⟨i, rfl⟩))

theorem registerOutcome_handleEvent {e : Event} {s t : State} (h : handleEvent e s = .next t) :
    registerOutcome s t := by
  rcases handleEvent_next h with
    ⟨low, rfl⟩ | ⟨-, b, -, hb⟩ | ⟨-, -, -, hc⟩ | ⟨-, -, -, rfl⟩ | ⟨-, level, -, rfl⟩
  · exact .inl (wasReset_heldInReset low e)
  · exact registerOutcome_busTransfer hb
  · exact registerOutcome_completion hc
  · exact .inr (.inl (registersKept_of_control _ _ _ _ _ _))
  · rcases setRstN_cases level s with ⟨-, -, same⟩ | reset
    · exact .inr (.inl (same.symm ▸ registersKept_of_control _ _ _ _ _ _))
    · exact .inl reset

/-- A step handles one event; `u` is the state with that event taken off the schedule. -/
theorem registerOutcome_step {s t : State} (h : step s = .next t) :
    ∃ u, registersKept s u ∧ registerOutcome u t := by
  obtain ⟨-, ⟨-, he⟩ | ⟨e, rest, -, he⟩⟩ := step_next h
  · exact ⟨s, registersKept_of_control _ _ _ _ _ _, registerOutcome_handleEvent he⟩
  · exact ⟨_, registersKept_of_control _ _ _ _ _ _, registerOutcome_handleEvent he⟩

end Sys2Proof.Machine
end

section
/-! PROOFS. What every step keeps (10_state.md R28, R38, R40; 45_hill.md R235; 70_reset_and_hazards.md R324). -/

namespace Sys2Proof.Machine

/-- `statusOk` is the three rules of 10_state.md R28. -/
theorem statusOk_iff (st : Status) : statusOk st = true ↔
    (st.err = true ↔ st.errcode ≠ 0#4) ∧
    (st.busy = true → st.done = false ∧ st.err = false ∧ st.errcode = 0#4) ∧
    st.errcode.toNat ∈ [0, 1, 2, 3, 4] := by
  have codes : st.errcode.toNat ∈ [0, 1, 2, 3, 4] ↔ st.errcode.toNat ≤ 4 := by simp; omega
  obtain ⟨busy, done, err, errcode, overrun⟩ := st
  rw [codes]
  cases busy <;> cases err <;> simp [statusOk, and_assoc]

theorem statusOk_regWrite {s : State} (h : statusOk s.status = true) (r : Reg) (w : Word) :
    statusOk (regWrite r w s).status = true := by
  rcases regWrite_cases r w s with e | e | e | e | e | e | ⟨-, e⟩ <;> rw [e]
  · exact h
  · rfl
  · exact h
  · exact statusOk_write h w
  · exact statusOk_accept s.status
  · exact statusOk_overrun h
  · simpa using h

theorem statusOk_exec {i : Instr} {s t : State} (h : exec i s = .next t) : statusOk t.status = true := by
  rcases exec_next h with ⟨e, rfl⟩ | ⟨-, rfl⟩
  · exact statusOk_complete (errorCode_le e) s.status
  · exact statusOk_complete (by decide) (resultState i s).status

theorem statusOk_handleEvent {e : Event} {s t : State} (ok : statusOk s.status = true)
    (h : handleEvent e s = .next t) : statusOk t.status = true := by
  rcases handleEvent_next h with
    ⟨low, rfl⟩ | ⟨-, b, -, hb⟩ | ⟨-, -, -, hc⟩ | ⟨-, -, -, rfl⟩ | ⟨-, level, -, rfl⟩
  · rw [(wasReset_heldInReset low e).2]; rfl
  · rcases busTransfer_next hb with ⟨-, ⟨-, -, rfl⟩ | ⟨r, -, rfl⟩⟩ <;> split
    · exact ok
    · exact ok
    · exact statusOk_regWrite ok r b.pwdata
    · exact ok
  · rcases completion_next hc with ⟨-, rfl⟩ | ⟨i, -, hi⟩
    · exact statusOk_complete (errorCode_le .illegalCmd) s.status
    · exact statusOk_exec hi
  · exact ok
  · rcases setRstN_cases level s with ⟨-, -, same⟩ | reset
    · rw [same]; exact ok
    · rw [reset.2]; rfl

theorem statusOk_step {s t : State} (h : step s = .next t) : statusOk t.status = true := by
  obtain ⟨ok, ⟨-, he⟩ | ⟨e, rest, -, he⟩⟩ := step_next h
  · exact statusOk_handleEvent ok he
  · exact statusOk_handleEvent (s := { s with events := rest }) ok he

/-- Settles O29: `statusOk` is R28, a step tests it first, and whatever it then answers keeps it. -/
theorem statusRulesHoldAndAreEnforced : Obligations.StatusRulesHoldAndAreEnforced := by
  refine ⟨fun s reached => (statusOk_iff s.status).mp ?holds, fun s broken => ?enforced⟩
  case holds =>
    rcases reached with rfl | ⟨s₀, h⟩
    · rfl
    · exact statusOk_step h
  case enforced => exact if_neg fun ok => broken ((statusOk_iff s.status).mp ok)

theorem toNat_readReg_vout (j : Fin 4) (s : State) : (readReg (.vout j) s).toNat = (s.vout[j.val]'j.isLt).toNat :=
  BitVec.toNat_setWidth_of_le (by decide)

theorem toNat_readReg_dinv (s : State) : (readReg .dinv s).toNat = s.dinv.toNat :=
  BitVec.toNat_setWidth_of_le (by decide)

theorem voutInRange_iff (s : State) : voutInRange s ↔ ∀ j, (readReg (.vout j) s).toNat < 26 := by
  simp only [voutInRange, toNat_readReg_vout]

theorem dinvUnit_iff (s : State) : dinvUnit s ↔
    (readReg .dinv s).toNat = 0 ∨ ((readReg .dinv s).toNat < 26 ∧ Nat.gcd (readReg .dinv s).toNat 26 = 1) := by
  simp only [dinvUnit, toNat_readReg_dinv, ← BitVec.toNat_inj, BitVec.toNat_ofNat, Nat.zero_mod]

theorem voutInRange_congr {s t : State} (h : ∀ j, readReg (.vout j) t = readReg (.vout j) s) :
    voutInRange t ↔ voutInRange s := by
  simp only [voutInRange_iff, h]

theorem dinvUnit_congr {s t : State} (h : readReg .dinv t = readReg .dinv s) : dinvUnit t ↔ dinvUnit s := by
  simp only [dinvUnit_iff, h]

/-- The invariant of the machine without its STATUS rules: what it says of the registers from 0x040 on. -/
structure RegisterInv (s : State) : Prop where
  vout : voutInRange s
  dinv : dinvUnit s
  nodup : s.written.Nodup
  unwritten : unwrittenReadsZero s

theorem Inv.registers {s : State} (h : Inv s) : RegisterInv s := ⟨h.vout, h.dinv, h.nodup, h.unwritten⟩

theorem RegisterInv.of_kept {s t : State} (h : RegisterInv s) (kept : registersKept s t) : RegisterInv t := by
  obtain ⟨written, reads⟩ := kept
  exact
    { vout := (voutInRange_congr fun j => reads (.vout j) rfl).mpr h.vout
      dinv := (dinvUnit_congr (reads .dinv rfl)).mpr h.dinv
      nodup := written ▸ h.nodup
      unwritten := fun r control absent => (reads r control).trans (h.unwritten r control (written ▸ absent)) }

theorem RegisterInv.of_wasReset {t : State} (h : wasReset t) : RegisterInv t := by
  obtain ⟨⟨reads, written, -⟩, -⟩ := h
  refine ⟨?vout, ?dinv, written ▸ List.nodup_nil, ?unwritten⟩
  case vout => simp [voutInRange_iff, reads]
  case dinv => simp [dinvUnit_iff, reads]
  case unwritten =>
    intro r control _
    rw [reads r, if_neg (by rintro rfl; contradiction)]

/-- A host-writable register is neither VOUT nor DINV (10_state.md R42). -/
theorem RegisterInv.of_store {s : State} {r : Reg} (h : RegisterInv s) (writable : hostWritable r = true) (w : Word) :
    RegisterInv (markWritten [r] (storeField r w s)) := by
  have reads (q : Reg) (ne : q ≠ r) : readReg q (markWritten [r] (storeField r w s)) = readReg q s :=
    (readReg_markWritten q [r] _).trans (readReg_storeField ne w s)
  refine ⟨?vout, ?dinv, markWritten_nodup (by simpa using h.nodup), ?unwritten⟩
  case vout => exact (voutInRange_congr fun j => reads (.vout j) (by rintro rfl; contradiction)).mpr h.vout
  case dinv => exact (dinvUnit_congr (reads .dinv (by rintro rfl; contradiction))).mpr h.dinv
  case unwritten =>
    intro q control absent
    simp only [mem_markWritten, List.mem_singleton, storeField_written, not_or] at absent
    rw [reads q absent.1]
    exact h.unwritten q control absent.2

theorem voutInRange_writeVout {n : Nat} {v : Nat → Int} (h : ∀ j, 0 ≤ v j ∧ v j < 26) (s : State) :
    voutInRange (writeVout n v s) := by
  intro j
  rw [writeVout_vout, Vector.getElem_ofFn]
  split
  · obtain ⟨low, high⟩ := h j.val
    change (BitVec.ofInt 5 (v j.val)).toNat < 26
    rw [BitVec.toNat_ofInt]
    omega
  · decide

theorem matVec26_bounds (n : Nat) (x : IntMatrix) (v : Nat → Int) (i : Nat) :
    0 ≤ matVec26 n x v i ∧ matVec26 n x v i < 26 :=
  ⟨Int.emod_nonneg _ (by decide), Int.emod_lt_of_pos _ (by decide)⟩

theorem vecMat26_bounds (n : Nat) (x : IntMatrix) (v : Nat → Int) (j : Nat) :
    0 ≤ vecMat26 n x v j ∧ vecMat26 n x v j < 26 :=
  ⟨Int.emod_nonneg _ (by decide), Int.emod_lt_of_pos _ (by decide)⟩

/-- Only MVM and VMM write VOUT, and they write residues mod 26 (45_hill.md R232, R233). -/
theorem voutInRange_resultState {s : State} (h : voutInRange s) (i : Instr) : voutInRange (resultState i s) := by
  cases i with
  | mvm | mvmS => exact voutInRange_writeVout (matVec26_bounds _ _ _) s
  | vmm | vmmS => exact voutInRange_writeVout (vecMat26_bounds _ _ _) s
  | _ =>
    exact (voutInRange_congr fun j =>
      readReg_resultState (by simp [resultRegs, skRegs, subkeyRegs, matrixRegs]) s).mpr h

theorem modInv26_spec {d : Int} {di : Nat} (h : modInv26 d = some di) : di < 26 ∧ (d * (di : Int)) % 26 = 1 := by
  have found := List.find?_some h
  exact ⟨List.mem_range.mp (List.mem_of_find?_eq_some h), by simpa using found⟩

theorem gcd_eq_one_of_mul_emod {d : Int} {x : Nat} (h : (d * (x : Int)) % 26 = 1) : Nat.gcd x 26 = 1 := by
  have left : ((Nat.gcd x 26 : Nat) : Int) ∣ d * x :=
    (Int.natCast_dvd_natCast.mpr (Nat.gcd_dvd_left x 26)).mul_left d
  have right : ((Nat.gcd x 26 : Nat) : Int) ∣ 26 := Int.natCast_dvd_natCast.mpr (Nat.gcd_dvd_right x 26)
  have unit : ((Nat.gcd x 26 : Nat) : Int) ∣ 1 := h ▸ (EuclideanDomain.dvd_mod_iff right).mpr left
  exact Nat.dvd_one.mp (Int.natCast_dvd_natCast.mp unit)

theorem dinvUnit_of_modInv26 {s : State} {d : Int} (h : s.dinv = BitVec.ofNat 5 ((modInv26 d).getD 0)) :
    dinvUnit s := by
  cases found : modInv26 d with
  | none => exact .inl (by simpa [found] using h)
  | some di =>
    obtain ⟨small, inverse⟩ := modInv26_spec found
    have value : s.dinv.toNat = di := by
      rw [h, found, Option.getD_some, BitVec.toNat_ofNat, Nat.mod_eq_of_lt (by omega)]
    exact .inr ⟨value ▸ small, value ▸ gcd_eq_one_of_mul_emod inverse⟩

/-- Only INV writes DINV, and it writes what the inverse search found (44_matrix_inverse.md R207). -/
theorem dinvUnit_resultState {s : State} (h : dinvUnit s) (i : Instr) : dinvUnit (resultState i s) := by
  cases i with
  | inv n m | invT n m =>
    exact dinvUnit_of_modInv26 (d := matDet n.toNat (maEntry s)) (by simp [resultState, writeInverse])
  | _ =>
    exact (dinvUnit_congr (readReg_resultState (by simp [resultRegs, skRegs, subkeyRegs, matrixRegs]) s)).mpr h

theorem nodup_resultState {s : State} (h : s.written.Nodup) (i : Instr) : (resultState i s).written.Nodup := by
  cases i with
  | nop => exact h
  | inv | invT => exact markWritten_nodup (markWritten_nodup (markWritten_nodup h))
  | _ => exact markWritten_nodup h

theorem RegisterInv.of_result {s : State} (h : RegisterInv s) (i : Instr) :
    RegisterInv (completeWith 0#4 (resultState i s)) := by
  refine ⟨voutInRange_resultState h.vout i, dinvUnit_resultState h.dinv i, nodup_resultState h.nodup i, ?_⟩
  intro r control absent
  rw [completeWith_written, mem_resultState_written, not_or] at absent
  rw [readReg_completeWith (by rintro rfl; contradiction), readReg_resultState absent.1]
  exact h.unwritten r control absent.2

theorem RegisterInv.of_outcome {s t : State} (h : RegisterInv s) (outcome : registerOutcome s t) : RegisterInv t := by
  rcases outcome with reset | kept | ⟨r, w, writable, rfl⟩ | ⟨i, rfl⟩
  · exact .of_wasReset reset
  · exact h.of_kept kept
  · exact h.of_store writable w
  · exact h.of_result i

/-- Settles O28: a step keeps the STATUS rules, and each of the four things it can leave of the other registers
keeps the rest of the invariant. -/
theorem stepKeepsInvariant : Obligations.StepKeepsInvariant := by
  intro s t inv h
  obtain ⟨u, kept, outcome⟩ := registerOutcome_step h
  have registers : RegisterInv t := (inv.registers.of_kept kept).of_outcome outcome
  exact ⟨statusOk_step h, registers.vout, registers.dinv, registers.nodup, registers.unwritten⟩

end Sys2Proof.Machine
end

section
/-! PROOFS. A host write of a control or read-only register, and every way into reset (10_state.md R23, R25, R27,
R42, R45; 70_reset_and_hazards.md R300, R302). -/

namespace Sys2Proof.Machine

/-- Settles O8: the write reaches CMD, and an idle block accepts the word. -/
theorem commandWordAccepted : Obligations.CommandWordAccepted := by
  intro s w rest run idle next
  rw [step_write run next]
  exact congrArg Host.Outcome.next (writeCmd_of_idle w (s := { s with events := rest }) idle)

theorem statusWrite_eq (w : Word) (st : Status) : statusWrite w st =
    { busy := st.busy
      done := st.done && !w.getLsbD 1
      err := st.err && !w.getLsbD 2
      errcode := if w.getLsbD 2 = true then 0#4 else st.errcode
      overrun := st.overrun && !w.getLsbD 8 } := by
  have cleared (selected bit : Bool) : (if selected = true then false else bit) = (bit && !selected) := by
    cases selected <;> cases bit <;> rfl
  simp only [statusWrite, cleared]

/-- Settles O21: each field of STATUS keeps its value unless the word selects it. -/
theorem statusWriteClearsSelectedBits : Obligations.StatusWriteClearsSelectedBits := by
  intro s w rest run next
  rw [step_write run next, ← statusWrite_eq]
  rfl

/-- Settles O22: without bit 1 the write stores IE, and with it every register takes its reset value. -/
theorem controlWriteSetsEnableOrResets : Obligations.ControlWriteSetsEnableOrResets := by
  intro s w rest run next
  rw [step_write run next]
  refine ⟨fun enable => ?enable, fun srst => ⟨blockReset { s with events := rest }, ?resets⟩⟩
  case enable => exact congrArg Host.Outcome.next (writeCtrl_of_not_srst enable _)
  case resets =>
    have reset := wasReset_blockReset { s with events := rest }
    exact ⟨congrArg Host.Outcome.next (writeCtrl_of_srst srst _), reset.1, reset.2,
      readReg_blockReset .ctrl _, run.2, rfl, rfl⟩

theorem regWrite_readOnly_of_idle {r : Reg} (operand : isControl r = false) (readOnly : hostWritable r = false)
    (w : Word) {s : State} (idle : s.status.busy = false) : regWrite r w s = s := by
  rw [regWrite_of_not_control operand, writeOperand_of_idle r w idle, readOnly, if_neg Bool.false_ne_true]

theorem regWrite_operand_of_busy {r : Reg} (operand : isControl r = false) (w : Word) {s : State}
    (busy : s.status.busy = true) : regWrite r w s = dropWrite s := by
  rw [regWrite_of_not_control operand, writeOperand_of_busy r w busy]

/-- Settles O19: ID ignores every write, and the other read-only registers lie in the operand space, where a write
is ignored while idle and dropped while BUSY. -/
theorem readOnlyWritesIgnored : Obligations.ReadOnlyWritesIgnored := by
  intro s r w rest run next listed
  have readOnly : r = .id ∨ (isControl r = false ∧ hostWritable r = false) := by
    rcases listed with named | ⟨j, rfl⟩ | ⟨i, j, rfl⟩
    · have all : ∀ q ∈ [Reg.id, Reg.doutHi, Reg.doutLo, Reg.fOut, Reg.detLo, Reg.detHi, Reg.dinv],
          q = .id ∨ (isControl q = false ∧ hostWritable q = false) := by decide
      exact all r named
    · exact .inr ⟨rfl, rfl⟩
    · exact .inr ⟨rfl, rfl⟩
  rw [step_write run next]
  rcases readOnly with rfl | ⟨operand, notWritable⟩
  · exact ⟨fun _ => rfl, fun _ notId => absurd rfl notId⟩
  · refine ⟨fun idleOrId => ?idle, fun busy _ => ?busy⟩
    case idle =>
      have idle : s.status.busy = false := idleOrId.resolve_right (by rintro rfl; contradiction)
      rw [regWrite_readOnly_of_idle operand notWritable w (s := { s with events := rest }) idle]
    case busy =>
      rw [regWrite_operand_of_busy operand w (s := { s with events := rest }) busy]
      rfl

theorem step_of_nil {s : State} (ok : statusOk s.status = true) (none : s.events = []) :
    step s = handleEvent .engine s := by
  simp only [step, ok, if_true, nextEvent, none]

theorem step_of_cons {s : State} {e : Event} {rest : List Event} (ok : statusOk s.status = true)
    (next : s.events = e :: rest) : step s = handleEvent e { s with events := rest } := by
  simp only [step, ok, if_true, nextEvent, next]

theorem handleEvent_of_low {s : State} (low : s.rstN = false) (e : Event) :
    handleEvent e s = .next (heldInReset e s) :=
  if_neg (Bool.eq_false_iff.mp low)

theorem wasReset_setRstN_low (s : State) : wasReset (setRstN false s) :=
  (setRstN_cases false s).resolve_left fun ⟨high, _⟩ => Bool.false_ne_true high

theorem handleEvent_rstN_low (s : State) : handleEvent (.rstN false) s = .next (setRstN false s) := by
  cases level : s.rstN <;> simp [handleEvent, heldInReset, level]

/-- Every way into reset puts each register at its reset value (70_reset_and_hazards.md R300, R302). -/
theorem step_of_resetNext {s : State} (ok : statusOk s.status = true) (reset : resetNext s) :
    ∃ t, step s = .next t ∧ wasReset t := by
  by_cases low : s.rstN = false
  · cases next : s.events with
    | nil => exact ⟨_, (step_of_nil ok next).trans (handleEvent_of_low low _), wasReset_heldInReset low _⟩
    | cons e rest =>
      have low' : ({ s with events := rest } : State).rstN = false := low
      exact ⟨_, (step_of_cons ok next).trans (handleEvent_of_low low' e), wasReset_heldInReset low' e⟩
  · rcases reset with low' | ⟨rest, next⟩ | ⟨w, rest, next, srst⟩
    · exact absurd low' low
    · exact ⟨_, (step_of_cons ok next).trans (handleEvent_rstN_low _), wasReset_setRstN_low _⟩
    · have run : running s := ⟨ok, by simpa using low⟩
      refine ⟨blockReset { s with events := rest }, ?_, wasReset_blockReset _⟩
      rw [step_write run next]
      exact congrArg Host.Outcome.next (writeCtrl_of_srst srst _)

theorem wasReset_reset : wasReset State.reset := wasReset_blockReset State.reset

theorem wasReset.idle {t : State} (h : wasReset t) : t.status.busy = false := by rw [h.2]; rfl

/-- Settles O23: `State.reset` and every way into reset leave each register at its reset value. -/
theorem resetValues : Obligations.ResetValues := by
  refine ⟨wasReset_reset.1, wasReset_reset.idle, fun s ok next => ?_⟩
  obtain ⟨t, stepped, reset⟩ := step_of_resetNext ok next
  exact ⟨t, stepped, reset.1, reset.idle⟩

end Sys2Proof.Machine
end

section
/-! PROOFS. The register map is a bijection (10_state.md R21; 20_memory.md R62, R63). -/

namespace Sys2Proof.Machine

@[simp] theorem index_val (n k : Nat) : (index n k).val = k % (n + 1) := rfl

theorem regOffsetNat_lt (r : Reg) : regOffsetNat r < 0x1C0 := by
  cases r <;> simp only [regOffsetNat] <;> omega

theorem regOffset_toNat (r : Reg) : (regOffset r).toNat = regOffsetNat r := by
  have := regOffsetNat_lt r
  rw [regOffset, BitVec.toNat_ofNat, Nat.mod_eq_of_lt (by omega)]

theorem regOffsetNat_of_getElem? {regs : List Reg} {base k : Nat} {r : Reg}
    (block : ∀ k : Fin regs.length, regOffsetNat regs[k] = base + 4 * k.val) (h : regs[k]? = some r) :
    regOffsetNat r = base + 4 * k := by
  obtain ⟨inside, rfl⟩ := List.getElem?_eq_some_iff.mp h
  exact block ⟨k, inside⟩

/-- The blocks of the map in the order of `regAt`: each names registers at its own offsets only. -/
theorem regOffsetNat_of_regAt {off : Offset} {r : Reg} (h : regAt off = some r) : regOffsetNat r = off.toNat := by
  rw [regAt] at h
  generalize off.toNat = o at h ⊢
  simp only [ite_eq_iff (α := Option Reg), Option.some.injEq, reduceCtorEq, and_false, false_or, or_false] at h
  rcases h with ⟨aligned, ⟨below, control⟩ | ⟨-, from040, ⟨below, des⟩ | ⟨-, from080, ⟨below, rfl⟩ |
    ⟨from100, ⟨below, rfl⟩ | ⟨from140, ⟨below, rfl⟩ | ⟨from150, ⟨below, rfl⟩ |
    ⟨from160, ⟨below, det⟩ | ⟨-, from180, below, rfl⟩⟩⟩⟩⟩⟩⟩⟩
  · have := regOffsetNat_of_getElem? (base := 0x000) (by decide) control
    omega
  · have := regOffsetNat_of_getElem? (base := 0x040) (by decide) des
    omega
  · split <;> simp only [regOffsetNat, index_val] <;> omega
  · simp only [regOffsetNat, index_val]; omega
  · simp only [regOffsetNat, index_val]; omega
  · simp only [regOffsetNat, index_val]; omega
  · have := regOffsetNat_of_getElem? (base := 0x160) (by decide) det
    omega
  · simp only [regOffsetNat, index_val]; omega

theorem regAt_eq_none_of_ge {off : Offset} (h : off.toNat ≥ 0x1C0) : regAt off = none := by
  by_contra named
  obtain ⟨r, hr⟩ := Option.ne_none_iff_exists'.mp named
  have := regOffsetNat_of_regAt hr
  have := regOffsetNat_lt r
  omega

/-- Settles O13: each register lies at its own offset, and `regAt` answers it only there. -/
theorem registerMapIsBijective : Obligations.RegisterMapIsBijective :=
  ⟨fun r => ⟨regAt_regOffset r, regOffset_toNat r⟩,
    fun _ r h => BitVec.eq_of_toNat_eq ((regOffset_toNat r).trans (regOffsetNat_of_regAt h)),
    fun _ => regAt_eq_none_of_ge⟩

end Sys2Proof.Machine
end

section
/-! PROOFS. What a command answers, in one equation: an error of its form, the operand check, then an error of
its operands' values or its results (60_exceptions.md R260-R265; 44_matrix_inverse.md R203, R207), and the frame of
10_state.md R44. -/

namespace Sys2Proof.Machine

theorem completeWith_eq_failedState (c : BitVec 4) (s : State) : completeWith c s = failedState c s := by
  have err : (c != 0#4) = decide (c ≠ 0#4) := by by_cases zero : c = 0#4 <;> simp [zero]
  rw [completeWith, failedState, statusComplete, completedStatus, err]

/-- Settles O10: a command that goes on has completed from `s` or from its results, which lie in its row. -/
theorem completionFrame : Obligations.CompletionFrame := by
  intro i s t h
  rcases exec_next h with ⟨e, rfl⟩ | ⟨-, rfl⟩
  case inl =>
    have failed := completeWith_eq_failedState (errorCode e) s
    exact ⟨congrArg State.status failed, errorCode_le e, ⟨rfl, rfl, rfl, rfl, rfl⟩, rfl, rfl,
      fun r _ notStatus => readReg_completeWith notStatus _ s, fun _ => failed⟩
  case inr =>
    obtain ⟨status, ie, cmd, environment⟩ := resultState_environment i s
    have done : (completeWith 0#4 (resultState i s)).status = completedStatus 0#4 s := by
      rw [completeWith_eq_failedState, failedState, completedStatus, status]
      rfl
    refine ⟨done, Nat.zero_le 4, environment, ie, cmd, fun r outside notStatus => ?_, fun code => absurd rfl code⟩
    rw [readReg_completeWith notStatus, readReg_resultState outside]

/-- The error that N and M alone decide, before any operand is read (44_matrix_inverse.md R203; log 8). -/
def shapeError (i : Instr) : Option CmdError :=
  match i.dims with
  | none => none
  | some (n, m) => if dimOk n m then if n = m then none else some .invalidMatrixShape else some .illegalCmd

/-- The error that INV finds in its operands (44_matrix_inverse.md R207). -/
def operandError (i : Instr) (s : State) : Option CmdError :=
  match i with
  | .inv n _ | .invT n _ =>
    if diagProduct n.toNat (maEntry s) = 0 then some .notInvertible
    else if Int.gcd (matDet n.toNat (maEntry s)) 26 = 1 then none else some .noModularInverse
  | _ => none

/-- The state after a command whose form is right and whose operands may be read. -/
def completedState (i : Instr) (s : State) : State :=
  match operandError i s with
  | some e => completeWith (errorCode e) s
  | none => completeWith 0#4 (resultState i s)

/-- Go on if the form of the command is right; else complete with the error of the form. -/
def withShape (i : Instr) (s : State) (go : StepOutcome) : StepOutcome :=
  match shapeError i with
  | some e => raiseError e s
  | none => go

/-- Every matrix command checks N and M, then its operands, then runs on n = N (44_matrix_inverse.md R203). -/
theorem matrixCommand_eq {i : Instr} {n m : BitVec 3} {s : State} {operands : Nat → List Reg}
    {run : Nat → StepOutcome} (dims : i.dims = some (n, m)) (reads : operands n.toNat = operandRegs i)
    (runs : run n.toNat = .next (completedState i s)) :
    matrixCommand n m s operands run =
      withShape i s (withOperands (operandRegs i) s (.next (completedState i s))) := by
  rw [← reads, ← runs]
  simp only [matrixCommand, withShape, shapeError, dims]
  by_cases legal : dimOk n m = true
  · by_cases square : n = m
    · rw [if_pos legal, if_pos square, if_pos legal, if_pos square]
    · rw [if_pos legal, if_neg square, if_pos legal, if_neg square]
  · rw [if_neg legal, if_neg legal]

/-- The search finds the residue of a Bezout coefficient or a smaller inverse (44_matrix_inverse.md R204). -/
theorem modInv26_isSome {d : Int} (coprime : Int.gcd d 26 = 1) : (modInv26 d).isSome = true := by
  have bezout : d * Int.gcdA d 26 = 1 + 26 * (-Int.gcdB d 26) := by
    have := Int.gcd_eq_gcd_ab d 26
    rw [coprime] at this
    push_cast at this
    linarith
  have nonneg := Int.emod_nonneg (Int.gcdA d 26) (b := 26) (by decide)
  have small := Int.emod_lt_of_pos (Int.gcdA d 26) (b := 26) (by decide)
  refine List.find?_isSome.mpr ⟨(Int.gcdA d 26 % 26).toNat, List.mem_range.mpr (by omega), ?_⟩
  rw [beq_iff_eq, Int.toNat_of_nonneg nonneg, Int.mul_emod,
    Int.emod_emod_of_dvd _ (dvd_refl 26), ← Int.mul_emod, bezout,
    Int.add_mul_emod_self_left]
  rfl

/-- INV's checks of its operands, in the order of 44_matrix_inverse.md R207. -/
theorem invRun_eq (t : Bool) (n m : BitVec 3) (s : State) :
    (if diagProduct n.toNat (maEntry s) = 0 then raiseError .notInvertible s
      else invFromDet t n.toNat (matDet n.toNat (maEntry s)) s) =
      .next (completedState (if t then .invT n m else .inv n m) s) := by
  by_cases singular : diagProduct n.toNat (maEntry s) = 0
  · cases t <;> simp [completedState, operandError, singular, raiseError]
  · by_cases coprime : Int.gcd (matDet n.toNat (maEntry s)) 26 = 1
    · obtain ⟨di, found⟩ := Option.isSome_iff_exists.mp (modInv26_isSome coprime)
      cases t <;> simp [completedState, operandError, singular, invFromDet, coprime, found, succeed, resultState]
    · cases t <;> simp [completedState, operandError, singular, invFromDet, coprime, raiseError]

/-- Every command checks its form, then that its operands may be read, then completes. -/
theorem exec_eq (i : Instr) (s : State) :
    exec i s = withShape i s (withOperands (operandRegs i) s (.next (completedState i s))) := by
  cases i with
  | nop => exact (withOperands_ready (by simp [operandsReady, operandRegs]) (.next (completedState .nop s))).symm
  | ks | ffunc | round | blockEnc | blockDec | iperm | fperm => rfl
  | det | adj | adjT | mvm | mvmS | vmm | vmmS =>
    simp only [exec, execDet, execAdj, execAdjT, adjCommand, execMvm, execMvmS, execVmm, execVmmS]
    exact matrixCommand_eq rfl rfl rfl
  | inv n m =>
    simp only [exec, execInv, invCommand]
    exact matrixCommand_eq rfl rfl (invRun_eq false n m s)
  | invT n m =>
    simp only [exec, execInvT, invCommand]
    exact matrixCommand_eq rfl rfl (invRun_eq true n m s)

end Sys2Proof.Machine
end

section
/-! PROOFS. What a command reads: the values of its operand registers and nothing else (10_state.md R44;
41_des_key_schedule.md R152; 70_reset_and_hazards.md R307). -/

namespace Sys2Proof.Machine

/-- The registers of a list read the same in both states. -/
def agreeOn (rs : List Reg) (s₁ s₂ : State) : Prop := ∀ r ∈ rs, readReg r s₁ = readReg r s₂

theorem agreeOn_append {rs qs : List Reg} {s₁ s₂ : State} :
    agreeOn (rs ++ qs) s₁ s₂ ↔ agreeOn rs s₁ s₂ ∧ agreeOn qs s₁ s₂ :=
  List.forall_mem_append

/-! The DES operands as functions of read values. -/

theorem keyValue_congr {s₁ s₂ : State} (h : agreeOn keyRegs s₁ s₂) : keyValue s₁ = keyValue s₂ :=
  congrArg₂ (· ++ ·) (h .keyHi (by decide)) (h .keyLo (by decide))

theorem dinValue_congr {s₁ s₂ : State} (h : agreeOn dinRegs s₁ s₂) : dinValue s₁ = dinValue s₂ :=
  congrArg₂ (· ++ ·) (h .dinHi (by decide)) (h .dinLo (by decide))

theorem fkValue_eq (s : State) : fkValue s = (readReg .fKhi s).setWidth 16 ++ readReg .fKlo s := by
  simp [fkValue, readReg]

theorem fkValue_congr {s₁ s₂ : State} (h : agreeOn ffuncRegs s₁ s₂) : fkValue s₁ = fkValue s₂ := by
  rw [fkValue_eq, fkValue_eq, h .fKhi (by decide), h .fKlo (by decide)]

theorem subkey_eq (r : Fin 16) (s : State) :
    subkey r s = (readReg (.skHi r) s).setWidth 16 ++ readReg (.skLo r) s := by
  simp [subkey, readReg]

theorem subkey_congr {r : Fin 16} {s₁ s₂ : State} (h : agreeOn (subkeyRegs r) s₁ s₂) :
    subkey r s₁ = subkey r s₂ := by
  rw [subkey_eq, subkey_eq, h (.skHi r) (by simp [subkeyRegs]), h (.skLo r) (by simp [subkeyRegs])]

theorem subkeys_congr {s₁ s₂ : State} (h : agreeOn skRegs s₁ s₂) : subkeys s₁ = subkeys s₂ :=
  List.map_congr_left fun r inFile => subkey_congr fun q hq => h q (List.mem_flatMap.mpr ⟨r, inFile, hq⟩)

/-! The matrix operands: signed elements are the signed read values. -/

theorem maEntry_eq_toInt (s : State) (i j : Fin 4) : maEntry s i j = (readReg (.ma i j) s).toInt := by
  rw [maEntry, dif_pos ⟨i.isLt, j.isLt⟩, readReg, BitVec.toInt_signExtend_of_le (by decide)]

theorem mrEntry_eq_toInt (s : State) (i j : Fin 4) : mrEntry s i j = (readReg (.mr i j) s).toInt := by
  rw [mrEntry, dif_pos ⟨i.isLt, j.isLt⟩, readReg]

theorem vinEntry_eq_toInt (s : State) (j : Fin 4) : vinEntry s j = (readReg (.vin j) s).toInt := by
  rw [vinEntry, dif_pos j.isLt, readReg, BitVec.toInt_signExtend_of_le (by decide)]

theorem mem_maRegs {n : Nat} {i j : Fin 4} (hi : i.val < n) (hj : j.val < n) : Reg.ma i j ∈ maRegs n := by
  simp [maRegs, hi, hj]

theorem mem_mrRegs {n : Nat} {i j : Fin 4} (hi : i.val < n) (hj : j.val < n) : Reg.mr i j ∈ mrRegs n := by
  simp [mrRegs, hi, hj]

theorem mem_vinRegs {n : Nat} {j : Fin 4} (hj : j.val < n) : Reg.vin j ∈ vinRegs n := by
  simp [vinRegs, hj]

/-- Two matrices with the same elements in the top-left n x n block. -/
def sameBlock (n : Nat) (a b : IntMatrix) : Prop := ∀ i < n, ∀ j < n, a i j = b i j

/-- Two matrix files agree on a block where the elements of the 4 x 4 file read the same. -/
theorem sameBlock_of_reads {n : Nat} {a b : IntMatrix} {s₁ s₂ : State} (elem : Fin 4 → Fin 4 → Reg)
    (ha : ∀ i j : Fin 4, a i j = (readReg (elem i j) s₁).toInt)
    (hb : ∀ i j : Fin 4, b i j = (readReg (elem i j) s₂).toInt)
    (outside : ∀ i j, ¬ (i < 4 ∧ j < 4) → a i j = b i j)
    (reads : ∀ i j : Fin 4, i.val < n → j.val < n → readReg (elem i j) s₁ = readReg (elem i j) s₂) :
    sameBlock n a b := by
  intro i hi j hj
  by_cases inside : i < 4 ∧ j < 4
  · have read := reads ⟨i, inside.1⟩ ⟨j, inside.2⟩ hi hj
    exact (ha ⟨i, inside.1⟩ ⟨j, inside.2⟩).trans (read ▸ (hb ⟨i, inside.1⟩ ⟨j, inside.2⟩).symm)
  · exact outside i j inside

theorem maEntry_congr {n : Nat} {s₁ s₂ : State} (h : agreeOn (maRegs n) s₁ s₂) :
    sameBlock n (maEntry s₁) (maEntry s₂) :=
  sameBlock_of_reads .ma (maEntry_eq_toInt s₁) (maEntry_eq_toInt s₂)
    (fun _ _ outside => by rw [maEntry, maEntry, dif_neg outside, dif_neg outside])
    (fun _ _ hi hj => h _ (mem_maRegs hi hj))

theorem mrEntry_congr {n : Nat} {s₁ s₂ : State} (h : agreeOn (mrRegs n) s₁ s₂) :
    sameBlock n (mrEntry s₁) (mrEntry s₂) :=
  sameBlock_of_reads .mr (mrEntry_eq_toInt s₁) (mrEntry_eq_toInt s₂)
    (fun _ _ outside => by rw [mrEntry, mrEntry, dif_neg outside, dif_neg outside])
    (fun _ _ hi hj => h _ (mem_mrRegs hi hj))

theorem vinEntry_congr {n : Nat} {s₁ s₂ : State} (h : agreeOn (vinRegs n) s₁ s₂) :
    ∀ j < n, vinEntry s₁ j = vinEntry s₂ j := by
  intro j hj
  by_cases inside : j < 4
  · have read := h _ (mem_vinRegs (j := ⟨j, inside⟩) hj)
    exact (vinEntry_eq_toInt s₁ ⟨j, inside⟩).trans
      ((congrArg BitVec.toInt read).trans (vinEntry_eq_toInt s₂ ⟨j, inside⟩).symm)
  · rw [vinEntry, vinEntry, dif_neg inside, dif_neg inside]

/-! The matrix functions read the n x n block only. -/

theorem sumBelow_congr {n : Nat} {f g : Nat → Int} (h : ∀ k < n, f k = g k) : sumBelow n f = sumBelow n g :=
  congrArg List.sum (List.map_congr_left fun k below => h k (List.mem_range.mp below))

theorem skipIndex_lt {n x : Nat} (h : x < n) (k : Nat) : skipIndex k x < n + 1 := by
  rw [skipIndex]
  split <;> omega

theorem sameBlock.minor {n : Nat} {a b : IntMatrix} (h : sameBlock (n + 1) a b) (i j : Nat) :
    sameBlock n (matMinor a i j) (matMinor b i j) :=
  fun _ hr _ hc => h _ (skipIndex_lt hr i) _ (skipIndex_lt hc j)

theorem matDet_congr : ∀ {n : Nat} {a b : IntMatrix}, sameBlock n a b → matDet n a = matDet n b
  | 0, _, _, _ => rfl
  | 1, _, _, h => h 0 (by decide) 0 (by decide)
  | 2, a, b, h => by
    rw [matDet, matDet, h 0 (by decide) 0 (by decide), h 0 (by decide) 1 (by decide), h 1 (by decide) 0 (by decide),
      h 1 (by decide) 1 (by decide)]
  | n + 3, a, b, h => by
    rw [matDet, matDet]
    exact sumBelow_congr fun j hj => by rw [h 0 (by omega) j hj, matDet_congr (h.minor 0 j)]

theorem matAdjugate_congr {n : Nat} {a b : IntMatrix} (h : sameBlock n a b) : matAdjugate n a = matAdjugate n b := by
  funext j i
  cases n with
  | zero => rfl
  | succ n => rw [matAdjugate, matAdjugate, matCofactor, matCofactor, Nat.add_sub_cancel, matDet_congr (h.minor i j)]

theorem diagProduct_congr {n : Nat} {a b : IntMatrix} (h : sameBlock n a b) : diagProduct n a = diagProduct n b :=
  congrArg List.prod (List.map_congr_left fun i below => h i (List.mem_range.mp below) i (List.mem_range.mp below))

theorem matVec26_congr {n : Nat} {x y : IntMatrix} {v w : Nat → Int} (hx : sameBlock n x y)
    (hv : ∀ j < n, v j = w j) : ∀ i < n, matVec26 n x v i = matVec26 n y w i := fun i hi =>
  congrArg (· % 26) (sumBelow_congr fun j hj => congrArg₂ (· * ·) (hx i hi j hj) (hv j hj))

theorem vecMat26_congr {n : Nat} {x y : IntMatrix} {v w : Nat → Int} (hx : sameBlock n x y)
    (hv : ∀ j < n, v j = w j) : ∀ j < n, vecMat26 n x v j = vecMat26 n y w j := fun j hj =>
  congrArg (· % 26) (sumBelow_congr fun i hi => congrArg₂ (· * ·) (hv i hi) (hx i hi j hj))

/-! A result register reads what was written to it, whatever the state before. -/

theorem agreeOn_writeSubkeys (ks : List Subkey) (s₁ s₂ : State) :
    agreeOn skRegs (writeSubkeys ks s₁) (writeSubkeys ks s₂) := by
  intro r hr
  obtain ⟨k, -, hk⟩ := List.mem_flatMap.mp hr
  simp only [subkeyRegs, List.mem_cons, List.not_mem_nil, or_false] at hk
  rcases hk with rfl | rfl <;> simp only [readReg, writeSubkeys_skHi, writeSubkeys_skLo]

theorem agreeOn_writeFOut (v : Half) (s₁ s₂ : State) : agreeOn [.fOut] (writeFOut v s₁) (writeFOut v s₂) := by
  simp [agreeOn, readReg]

theorem agreeOn_writeFeistel (l r : Half) (s₁ s₂ : State) :
    agreeOn [.fl, .fr] (writeFeistel l r s₁) (writeFeistel l r s₂) := by
  simp [agreeOn, readReg]

theorem agreeOn_writeDout (v : Block) (s₁ s₂ : State) :
    agreeOn [.doutHi, .doutLo] (writeDout v s₁) (writeDout v s₂) := by
  simp [agreeOn, readReg]

theorem agreeOn_writeDet (d : Int) (s₁ s₂ : State) :
    agreeOn [.detLo, .detHi] (writeDet d s₁) (writeDet d s₂) := by
  simp [agreeOn, readReg]

theorem agreeOn_writeMr (n : Nat) (b : IntMatrix) (s₁ s₂ : State) :
    agreeOn (matrixRegs .mr) (writeMr n b s₁) (writeMr n b s₂) := by
  intro r hr
  obtain ⟨i, -, hi⟩ := List.mem_flatMap.mp hr
  obtain ⟨j, -, rfl⟩ := List.mem_map.mp hi
  simp only [readReg, writeMr_mr, Vector.getElem_ofFn]

theorem agreeOn_writeVout {n : Nat} {v w : Nat → Int} (h : ∀ j < n, v j = w j) (s₁ s₂ : State) :
    agreeOn ((List.finRange 4).map .vout) (writeVout n v s₁) (writeVout n w s₂) := by
  intro r hr
  obtain ⟨j, -, rfl⟩ := List.mem_map.mp hr
  simp only [readReg, writeVout_vout, Vector.getElem_ofFn]
  split
  · rename_i below
    rw [h j.val below]
  · rfl

theorem agreeOn_writeInverse {k : Nat} {s₁ s₂ : State} (h : sameBlock k (maEntry s₁) (maEntry s₂)) (t : Bool)
    (d : Int) (di : Nat) :
    agreeOn ([.detLo, .detHi, .dinv] ++ matrixRegs .mr) (writeInverse t k d di s₁) (writeInverse t k d di s₂) := by
  have inverse : matInverse26 k (maEntry s₁) di = matInverse26 k (maEntry s₂) di := by
    funext i j
    rw [matInverse26, matInverse26, matAdjugate_congr h]
  rw [writeInverse, writeInverse, inverse, agreeOn_append]
  exact ⟨by simp [agreeOn, readReg], agreeOn_writeMr k _ _ _⟩

/-- INV finds the same error in equal operands. -/
theorem operandError_congr {i : Instr} {s₁ s₂ : State} (h : agreeOn (operandRegs i) s₁ s₂) :
    operandError i s₁ = operandError i s₂ := by
  cases i with
  | inv | invT =>
    rw [operandError, operandError, diagProduct_congr (maEntry_congr h), matDet_congr (maEntry_congr h)]
  | _ => rfl

/-- Equal operands give equal results. -/
theorem resultState_congr {i : Instr} {s₁ s₂ : State} (h : agreeOn (operandRegs i) s₁ s₂) :
    agreeOn (resultRegs i) (resultState i s₁) (resultState i s₂) := by
  cases i with
  | nop => exact fun r hr => absurd hr List.not_mem_nil
  | ks =>
    rw [resultState, resultState, keyValue_congr h]
    exact agreeOn_writeSubkeys _ s₁ s₂
  | ffunc =>
    have fIn : s₁.fIn = s₂.fIn := h .fIn (by decide)
    rw [resultState, resultState, fIn, fkValue_congr h]
    exact agreeOn_writeFOut _ s₁ s₂
  | round idx =>
    have fl : s₁.fl = s₂.fl := h .fl (by simp [operandRegs])
    have fr : s₁.fr = s₂.fr := h .fr (by simp [operandRegs])
    have key : subkey idx.toFin s₁ = subkey idx.toFin s₂ :=
      subkey_congr fun r hr => h r (by simp [operandRegs, hr])
    rw [resultState, resultState, fl, fr, key]
    exact agreeOn_writeFeistel _ _ s₁ s₂
  | blockEnc | blockDec =>
    obtain ⟨din, sk⟩ := agreeOn_append.mp h
    rw [resultState, resultState, dinValue_congr din, subkeys_congr sk]
    exact agreeOn_writeDout _ s₁ s₂
  | iperm | fperm =>
    rw [resultState, resultState, dinValue_congr h]
    exact agreeOn_writeDout _ s₁ s₂
  | det =>
    rw [resultState, resultState, matDet_congr (maEntry_congr h)]
    exact agreeOn_writeDet _ s₁ s₂
  | adj | adjT =>
    rw [resultState, resultState, matAdjugate_congr (maEntry_congr h)]
    exact agreeOn_writeMr _ _ s₁ s₂
  | inv | invT =>
    rw [resultState, resultState, matDet_congr (maEntry_congr h)]
    exact agreeOn_writeInverse (maEntry_congr h) _ _ _
  | mvm =>
    obtain ⟨ma, vin⟩ := agreeOn_append.mp h
    exact agreeOn_writeVout (matVec26_congr (maEntry_congr ma) (vinEntry_congr vin)) s₁ s₂
  | mvmS =>
    obtain ⟨mr, vin⟩ := agreeOn_append.mp h
    exact agreeOn_writeVout (matVec26_congr (mrEntry_congr mr) (vinEntry_congr vin)) s₁ s₂
  | vmm =>
    obtain ⟨ma, vin⟩ := agreeOn_append.mp h
    exact agreeOn_writeVout (vecMat26_congr (maEntry_congr ma) (vinEntry_congr vin)) s₁ s₂
  | vmmS =>
    obtain ⟨mr, vin⟩ := agreeOn_append.mp h
    exact agreeOn_writeVout (vecMat26_congr (mrEntry_congr mr) (vinEntry_congr vin)) s₁ s₂

theorem status_notMem_resultRegs (i : Instr) : Reg.status ∉ resultRegs i := by
  cases i <;> simp [resultRegs, skRegs, subkeyRegs, matrixRegs]

/-- Equal operands complete with the same code, and on success with the same results. -/
theorem completedState_congr {i : Instr} {s₁ s₂ : State} (h : agreeOn (operandRegs i) s₁ s₂) :
    (completedState i s₂).status.errcode = (completedState i s₁).status.errcode ∧
    ((completedState i s₁).status.errcode = 0#4 →
      agreeOn (resultRegs i) (completedState i s₁) (completedState i s₂)) := by
  simp only [completedState, operandError_congr h]
  cases operandError i s₂ with
  | some e => exact ⟨rfl, fun success => absurd success (errorCode_ne_zero e)⟩
  | none =>
    refine ⟨rfl, fun _ r hr => ?_⟩
    have notStatus : r ≠ .status := by
      rintro rfl
      exact status_notMem_resultRegs i hr
    rw [readReg_completeWith notStatus, readReg_completeWith notStatus, resultState_congr h r hr]

/-- Settles O11: the error of the form is the command's alone, and the rest of `exec_eq` depends on the operands'
read values. -/
theorem resultsDependOnOperandsOnly : Obligations.ResultsDependOnOperandsOnly := by
  intro i s₁ s₂ t₁ agree went ready
  rw [exec_eq, withShape] at went ⊢
  cases shape : shapeError i with
  | some e =>
    simp only [shape] at went
    cases went
    exact ⟨_, rfl, rfl, fun success => absurd success (errorCode_ne_zero e)⟩
  | none =>
    simp only [shape] at went
    cases (withOperands_next went).2
    obtain ⟨code, results⟩ := completedState_congr agree
    exact ⟨_, withOperands_ready ready _, code, results⟩

end Sys2Proof.Machine
end

section
/-! PROOFS. What the bus port answers to an accepted access and to any other (20_memory.md R61, R64, R70;
70_reset_and_hazards.md R322). -/

namespace Sys2Proof.Machine

theorem accepted_iff (b : Transfer) : accepted b = true ↔
    b.paddr.extractLsb' 0 2 = 0#2 ∧ (b.pwrite = true → b.pstrb = 0b1111#4) := by
  cases write : b.pwrite <;> simp [accepted, write]

theorem handleEvent_bus {s : State} (released : s.rstN = true) (b : Transfer) :
    handleEvent (.bus b) s = busTransfer b s := if_pos released

theorem step_bus {s : State} {b : Transfer} {rest : List Event} (run : running s) (next : s.events = .bus b :: rest) :
    step s = busTransfer b { s with events := rest } :=
  (step_of_cons run.1 next).trans (handleEvent_bus (s := { s with events := rest }) run.2 b)

theorem busTransfer_of_refused {b : Transfer} (refused : accepted b = false) (s : State) :
    busTransfer b s = busFault b := if_neg (Bool.eq_false_iff.mp refused)

theorem responseData_of_refused {b : Transfer} (refused : accepted b = false) (s : State) :
    responseData b s = 0#32 := if_neg (Bool.eq_false_iff.mp refused)

theorem busTransfer_of_reserved {b : Transfer} (ok : accepted b = true) (reserved : regAt b.paddr = none) (s : State) :
    busTransfer b s = reservedAccess b s := by
  simp only [busTransfer, ok, if_true, acceptedAccess, reserved]

theorem busTransfer_of_read {b : Transfer} {r : Reg} (ok : accepted b = true) (read : b.pwrite = false)
    (named : regAt b.paddr = some r) (s : State) : busTransfer b s = .next (regRead r s) := by
  simp only [busTransfer, ok, if_true, acceptedAccess, named, read, if_neg Bool.false_ne_true]

theorem reservedAccess_of_strict {s : State} (strict : s.cfg.strictDecode = true) (b : Transfer) :
    reservedAccess b s = busFault b := if_pos strict

theorem reservedAccess_of_lenient {s : State} (lenient : s.cfg.strictDecode = false) (b : Transfer) :
    reservedAccess b s = .next (if b.pwrite then s else { s with prdata := 0#32 }) :=
  if_neg (Bool.eq_false_iff.mp lenient)

/-- Settles O15: `accepted` is R61's condition, and the port answers every other transfer with its fault. -/
theorem refusedAccessFaults : Obligations.RefusedAccessFaults := by
  refine ⟨accepted_iff, fun s b rest run next broken => ?_⟩
  have refused : accepted b = false := Bool.eq_false_iff.mpr fun ok => broken ((accepted_iff b).mp ok)
  exact ⟨(step_bus run next).trans (busTransfer_of_refused refused _), by rw [pslverr, refused, Bool.not_false],
    responseData_of_refused refused s⟩

/-- Settles O16: the switch alone decides between the fault and an access without effect. -/
theorem reservedOffsetAccess : Obligations.ReservedOffsetAccess := by
  intro s b rest run next ok reserved
  rw [step_bus run next, busTransfer_of_reserved ok reserved]
  refine ⟨fun lenient write => ?write, fun lenient read => ?read, fun strict => ?strict⟩
  case write => rw [reservedAccess_of_lenient (s := { s with events := rest }) lenient, if_pos write]
  case read =>
    rw [reservedAccess_of_lenient (s := { s with events := rest }) lenient, if_neg (Bool.eq_false_iff.mp read)]
  case strict => exact reservedAccess_of_strict (s := { s with events := rest }) strict b

theorem isControl_eq_false_iff (r : Reg) : isControl r = false ↔ 0x040 ≤ regOffsetNat r := by
  cases r <;> simp [isControl, regOffsetNat] <;> omega

theorem isDraw_iff {off : Offset} {r : Reg} (named : regAt off = some r) (s : State) :
    isDraw r s = true ↔ s.status.busy = true ∧ 0x040 ≤ off.toNat := by
  rw [isDraw, Bool.and_eq_true, Bool.not_eq_true', isControl_eq_false_iff, regOffsetNat_of_regAt named]

theorem regRead_of_draw {r : Reg} {s : State} (draw : isDraw r s = true) :
    regRead r s = { s with prdata := Config.draw s.drawCount, drawCount := s.drawCount + 1 } := by
  rw [regRead, readValue, if_pos draw, if_pos draw]

theorem regRead_of_not_draw {r : Reg} {s : State} (stable : ¬ isDraw r s = true) :
    regRead r s = { s with prdata := readReg r s } := by
  rw [regRead, readValue, if_neg stable, if_neg stable]

/-- Settles O17: the registers from 0x040 on are those whose read while BUSY is a draw. -/
theorem readAnswersAndChangesNothing : Obligations.ReadAnswersAndChangesNothing := by
  intro s b rest r run next ok read named
  rw [step_bus run next, busTransfer_of_read ok read named]
  have drawn := isDraw_iff named { s with events := rest }
  refine ⟨fun busyOperand => ?draw, fun other => ?stored⟩
  case draw => rw [regRead_of_draw (drawn.mpr busyOperand)]
  case stored => rw [regRead_of_not_draw fun draw => other (drawn.mp draw), readReg_events]

end Sys2Proof.Machine
end

section
/-! PROOFS. A host write of an operand register and the read that follows it (20_memory.md R72;
10_state.md R30-R37). -/

namespace Sys2Proof.Machine

theorem setWidth_sixteen_setWidth_eq_and (w : Word) : (w.setWidth 16).setWidth 32 = w &&& 0x0000FFFF#32 := by
  apply BitVec.eq_of_toNat_eq
  rw [BitVec.toNat_setWidth_of_le (by decide), BitVec.toNat_setWidth, BitVec.toNat_and]
  exact (Nat.and_two_pow_sub_one_eq_mod w.toNat 16).symm

/-- The field that `storeField` stores reads as the width rule says. -/
theorem readReg_storeField_same {r : Reg} (writable : hostWritable r = true) (w : Word) (s : State) :
    readReg r (storeField r w s) = widthRule r w := by
  cases r with
  | fKhi => exact setWidth_sixteen_setWidth_eq_and w
  | skHi k =>
    simp only [readReg, storeField, Vector.getElem_set_self]
    exact setWidth_sixteen_setWidth_eq_and w
  | skLo k => exact Vector.getElem_set_self k.isLt
  | ma | vin =>
    simp only [readReg, storeField, Vector.getElem_set_self, widthRule,
      BitVec.setWidth_eq_extractLsb' (w := 8) (v := 32) (by decide)]
  | keyHi | keyLo | dinHi | dinLo | fl | fr | fIn | fKlo => rfl
  | _ => cases writable

@[simp] theorem storeField_rstN (r : Reg) (w : Word) (s : State) : (storeField r w s).rstN = s.rstN := by
  cases r <;> rfl

@[simp] theorem storeField_events (r : Reg) (w : Word) (s : State) : (storeField r w s).events = s.events := by
  cases r <;> rfl

theorem isControl_of_hostWritable {r : Reg} (writable : hostWritable r = true) : isControl r = false := by
  cases r <;> first | rfl | cases writable

theorem step_write_operand {s : State} {r : Reg} {w : Word} {rest : List Event} (run : running s)
    (idle : s.status.busy = false) (writable : hostWritable r = true) (next : s.events = writeEvent r w :: rest) :
    step s = .next (markWritten [r] (storeField r w { s with events := rest })) := by
  rw [step_write run next, regWrite_of_not_control (isControl_of_hostWritable writable),
    writeOperand_of_idle r w (s := { s with events := rest }) idle, if_pos writable]

theorem isDraw_of_idle (r : Reg) {s : State} (idle : s.status.busy = false) : isDraw r s = false := by
  rw [isDraw, idle, Bool.false_and]

theorem step_read_of_idle {s : State} {r : Reg} {rest : List Event} (run : running s)
    (idle : s.status.busy = false) (next : s.events = readEvent r :: rest) :
    step s = .next { s with events := rest, prdata := readReg r s } := by
  have stable := isDraw_of_idle r (s := { s with events := rest }) idle
  rw [step_read run next, regRead_of_not_draw (Bool.eq_false_iff.mp stable), readReg_events]

@[simp] theorem readReg_port (r : Reg) (s : State) (events : List Event) (prdata : Word) :
    readReg r { s with events, prdata } = readReg r s := by
  cases r <;> rfl

/-- Settles O18: the write stores the field and nothing else, and the read changes no register. -/
theorem writeThenReadReturnsField : Obligations.WriteThenReadReturnsField := by
  intro s r w rest run idle writable next
  have field := readReg_storeField_same writable w { s with events := readEvent r :: rest }
  refine ⟨_, _, step_write_operand run idle writable next,
    step_read_of_idle (r := r) (rest := rest) ?runs ?idle ?next, ?prdata, rfl, fun q ne => ?others, ?register⟩
  case runs => simpa [running] using run
  case idle => simpa using idle
  case next => simp
  case prdata => exact (readReg_markWritten r [r] _).trans field
  case others => rw [readReg_port, readReg_markWritten, readReg_storeField ne, readReg_events]
  case register => rw [readReg_port, readReg_markWritten, field]

end Sys2Proof.Machine
end

section
/-! PROOFS. What an event can do to a command in flight (20_memory.md R71, R75). -/

namespace Sys2Proof.Machine

/-- The command word and every register from 0x040 on are as before. -/
def commandKept (s t : State) : Prop := t.cmd = s.cmd ∧ registersKept s t

/-- What an event can leave of a command in flight: no command at all, or the same one with its operands. -/
def flightOutcome (s t : State) : Prop := t.status.busy = false ∨ commandKept s t

theorem flightOutcome_of_control {s : State} (ie : Bool) (status : Status) (prdata : Word) (drawCount : Nat)
    (events : List Event) : flightOutcome s { s with ie, status, prdata, drawCount, events } :=
  .inr ⟨rfl, registersKept_of_control ie status s.cmd prdata drawCount events⟩

theorem flightOutcome_regWrite (r : Reg) (w : Word) {s : State} (busy : s.status.busy = true) :
    flightOutcome s (regWrite r w s) := by
  cases r with
  | id => exact flightOutcome_of_control _ _ _ _ _
  | ctrl =>
    by_cases srst : w.getLsbD 1 = true
    · exact .inl (congrArg (·.status.busy) (writeCtrl_of_srst srst s))
    · rw [regWrite, writeCtrl_of_not_srst (Bool.eq_false_iff.mpr srst)]
      exact flightOutcome_of_control _ _ _ _ _
  | status => exact flightOutcome_of_control _ _ _ _ _
  | cmd =>
    rw [regWrite, writeCmd_of_busy w busy]
    exact flightOutcome_of_control _ _ _ _ _
  | _ =>
    rw [regWrite_operand_of_busy rfl w busy]
    exact flightOutcome_of_control _ _ _ _ _

theorem flightOutcome_busTransfer {b : Transfer} {s t : State} (busy : s.status.busy = true)
    (h : busTransfer b s = .next t) : flightOutcome s t := by
  rcases busTransfer_next h with ⟨-, ⟨-, -, rfl⟩ | ⟨r, -, rfl⟩⟩ <;> split
  · exact flightOutcome_of_control _ _ _ _ _
  · exact flightOutcome_of_control _ _ _ _ _
  · exact flightOutcome_regWrite r b.pwdata busy
  · exact flightOutcome_of_control _ _ _ _ _

/-- A completion ends the command, with an error or with its results (60_exceptions.md R262). -/
theorem idle_of_completion {s t : State} (h : completion s = .next t) : t.status.busy = false := by
  rcases completion_next h with ⟨-, rfl⟩ | ⟨i, -, hi⟩
  · rfl
  · rcases exec_next hi with ⟨e, rfl⟩ | ⟨-, rfl⟩ <;> rfl

theorem flightOutcome_handleEvent {e : Event} {s t : State} (busy : s.status.busy = true)
    (h : handleEvent e s = .next t) : flightOutcome s t := by
  rcases handleEvent_next h with
    ⟨low, rfl⟩ | ⟨-, b, -, hb⟩ | ⟨-, -, -, hc⟩ | ⟨-, -, -, rfl⟩ | ⟨-, level, -, rfl⟩
  · exact .inl (wasReset_heldInReset low e).idle
  · exact flightOutcome_busTransfer busy hb
  · exact .inl (idle_of_completion hc)
  · exact flightOutcome_of_control _ _ _ _ _
  · rcases setRstN_cases level s with ⟨-, -, same⟩ | reset
    · exact same.symm ▸ flightOutcome_of_control _ _ _ _ _
    · exact .inl reset.idle

theorem flightOutcome_step {s t : State} (busy : s.status.busy = true) (h : step s = .next t) :
    flightOutcome s t := by
  obtain ⟨-, ⟨-, he⟩ | ⟨e, rest, -, he⟩⟩ := step_next h
  · exact flightOutcome_handleEvent busy he
  · simpa only [flightOutcome, commandKept, registersKept, readReg_events] using
      flightOutcome_handleEvent (s := { s with events := rest }) busy he

/-- Settles O32: a step that does not end the command keeps it. -/
theorem commandInFlightIsStable : Obligations.CommandInFlightIsStable := by
  intro s t h busy still
  have kept : commandKept s t := (flightOutcome_step busy h).resolve_left (by simp [still])
  obtain ⟨cmd, -, reads⟩ := kept
  exact ⟨cmd, reads⟩

end Sys2Proof.Machine
end

section
/-! PROOFS. Decoding and encoding are inverse: a command fixes the fields of its word, and the fields with the
reserved bits fix the word (30_encoding.md R90, R91, R98, R101). -/

namespace Sys2Proof.Machine

/-- The fields of a command's word (30_encoding.md R101). -/
def fieldsOf : Instr → CmdFields
  | .nop => ⟨0x0, 0, false, false, false, 0, 0⟩
  | .ks => ⟨0x1, 0, false, false, false, 0, 0⟩
  | .ffunc => ⟨0x2, 0, false, false, false, 0, 0⟩
  | .round idx => ⟨0x3, idx, false, false, false, 0, 0⟩
  | .blockEnc => ⟨0x4, 0, false, false, false, 0, 0⟩
  | .blockDec => ⟨0x4, 0, true, false, false, 0, 0⟩
  | .iperm => ⟨0x5, 0, false, false, false, 0, 0⟩
  | .fperm => ⟨0x6, 0, false, false, false, 0, 0⟩
  | .det n m => ⟨0x8, 0, false, false, false, n, m⟩
  | .adj n m => ⟨0x9, 0, false, false, false, n, m⟩
  | .adjT n m => ⟨0x9, 0, false, true, false, n, m⟩
  | .inv n m => ⟨0xA, 0, false, false, false, n, m⟩
  | .invT n m => ⟨0xA, 0, false, true, false, n, m⟩
  | .mvm n m => ⟨0xB, 0, false, false, false, n, m⟩
  | .mvmS n m => ⟨0xB, 0, false, false, true, n, m⟩
  | .vmm n m => ⟨0xC, 0, false, false, false, n, m⟩
  | .vmmS n m => ⟨0xC, 0, false, false, true, n, m⟩

theorem bitSlice_encodeMatrix_of_le {lo len : Nat} (below : lo + len ≤ 12) (base : Word) (n m : BitVec 3) :
    bitSlice (encodeMatrix base n m) lo len = bitSlice base lo len := by
  ext k hk
  have belowN : lo + k < 12 := by omega
  have belowM : lo + k < 16 := by omega
  simp [bitSlice, encodeMatrix, belowN, belowM]

theorem bitSlice_encodeMatrix_n {base : Word} (clear : bitSlice base 12 3 = 0#3) (n m : BitVec 3) :
    bitSlice (encodeMatrix base n m) 12 3 = n := by
  rw [bitSlice] at clear
  ext k hk
  have inside : 12 + k < 16 := by omega
  have inWord : 12 + k < 32 := by omega
  simp [bitSlice, encodeMatrix, BitVec.extractLsb'_or, clear, inside, inWord, BitVec.getLsbD_eq_getElem hk]

theorem bitSlice_encodeMatrix_m {base : Word} (clear : bitSlice base 16 3 = 0#3) (n m : BitVec 3) :
    bitSlice (encodeMatrix base n m) 16 3 = m := by
  rw [bitSlice] at clear
  ext k hk
  have inWord : 16 + k < 32 := by omega
  have beyondN : n.getLsbD (16 + k - 12) = false := BitVec.getLsbD_of_ge n _ (by omega)
  simp [bitSlice, encodeMatrix, BitVec.extractLsb'_or, clear, beyondN, inWord, BitVec.getLsbD_eq_getElem hk]

/-- Filling in N and M leaves the other fields of the base word as they are (30_encoding.md R101). -/
theorem cmdFields_encodeMatrix {base : Word} (clearN : bitSlice base 12 3 = 0#3) (clearM : bitSlice base 16 3 = 0#3)
    (n m : BitVec 3) : cmdFields (encodeMatrix base n m) = { cmdFields base with n, m } := by
  simp only [cmdFields, bitSlice_encodeMatrix_n clearN, bitSlice_encodeMatrix_m clearM,
    bitSlice_encodeMatrix_of_le (show 0 + 4 ≤ 12 by decide), bitSlice_encodeMatrix_of_le (show 4 + 4 ≤ 12 by decide)]
  simp [encodeMatrix]

theorem cmdFields_encode (i : Instr) : cmdFields (encode i) = fieldsOf i := by
  cases i with
  | nop | ks | ffunc | blockEnc | blockDec | iperm | fperm => rfl
  | round idx => revert idx; decide
  | _ n m => exact cmdFields_encodeMatrix rfl rfl n m

theorem reservedClear_encode (i : Instr) : reservedClear (encode i) = true := by
  cases i with
  | nop | ks | ffunc | blockEnc | blockDec | iperm | fperm => rfl
  | round idx => exact Laws.ReservedBits.round idx
  | _ n m => exact Laws.ReservedBits.reservedClear_encodeMatrix _ rfl n m

theorem toNat_bitSlice (w : Word) (lo len : Nat) : (bitSlice w lo len).toNat = w.toNat / 2 ^ lo % 2 ^ len := by
  rw [bitSlice, BitVec.extractLsb'_toNat, Nat.shiftRight_eq_div_pow]

theorem toNat_getLsbD (w : Word) (k : Nat) : (w.getLsbD k).toNat = w.toNat / 2 ^ k % 2 := by
  rw [BitVec.getLsbD, Nat.toNat_testBit]

/-- A word whose reserved bits are 0 is the sum of its fields, each at its place (30_encoding.md R90, R91). -/
theorem toNat_of_reservedClear {w : Word} (clear : reservedClear w = true) :
    w.toNat = (cmdFields w).opc.toNat + 2 ^ 4 * (cmdFields w).idx.toNat + 2 ^ 8 * (cmdFields w).dir.toNat +
      2 ^ 9 * (cmdFields w).t.toNat + 2 ^ 10 * (cmdFields w).s.toNat + 2 ^ 12 * (cmdFields w).n.toNat +
      2 ^ 16 * (cmdFields w).m.toNat := by
  simp only [reservedClear, Bool.and_eq_true, Bool.not_eq_true', beq_iff_eq] at clear
  obtain ⟨⟨bit11, bit15⟩, high⟩ := clear
  have bit11 : w.toNat / 2 ^ 11 % 2 = 0 := by rw [← toNat_getLsbD, bit11]; rfl
  have bit15 : w.toNat / 2 ^ 15 % 2 = 0 := by rw [← toNat_getLsbD, bit15]; rfl
  have high : w.toNat / 2 ^ 19 % 2 ^ 13 = 0 := by rw [← toNat_bitSlice, high]; rfl
  have := w.isLt
  simp only [cmdFields, toNat_bitSlice, toNat_getLsbD]
  omega

theorem eq_of_cmdFields_eq {v w : Word} (hv : reservedClear v = true) (hw : reservedClear w = true)
    (h : cmdFields v = cmdFields w) : v = w :=
  BitVec.eq_of_toNat_eq (by rw [toNat_of_reservedClear hv, toNat_of_reservedClear hw, h])

theorem decodeIf_eq_ok_iff {ok : Bool} {why : Illegal} {i j : Instr} :
    decodeIf ok why i = .ok j ↔ ok = true ∧ i = j := by
  cases ok <;> simp [decodeIf]

theorem decodeMatrix_eq_ok_iff {f : CmdFields} {unusedClear : Bool} {mk : BitVec 3 → BitVec 3 → Instr} {j : Instr} :
    decodeMatrix f unusedClear mk = .ok j ↔ unusedClear = true ∧ dimOk f.n f.m = true ∧ mk f.n f.m = j := by
  cases unusedClear <;> simp [decodeMatrix, decodeIf_eq_ok_iff]

theorem decodeFields_fieldsOf {i : Instr} (wf : i.wellFormed = true) : decodeFields (fieldsOf i) = .ok i := by
  cases i with
  | nop | ks | ffunc | blockEnc | blockDec | iperm | fperm => rfl
  | round idx => rfl
  | _ n m => exact decodeMatrix_eq_ok_iff.mpr ⟨rfl, wf, rfl⟩

theorem of_decodeFields {f : CmdFields} {i : Instr} (h : decodeFields f = .ok i) :
    i.wellFormed = true ∧ fieldsOf i = f := by
  obtain ⟨opc, idx, dir, t, s, n, m⟩ := f
  simp only [decodeFields] at h
  split at h <;> rename_i opcode
  -- the reserved opcodes
  case h_13 => cases h
  -- the matrix opcodes, where T or S chooses the form
  case h_8 | h_9 | h_10 | h_11 | h_12 =>
    simp only [decodeMatrix_eq_ok_iff, Bool.and_eq_true, Bool.not_eq_true', beq_iff_eq] at h
    obtain ⟨unused, dims, rfl⟩ := h
    constructor
    · cases t <;> cases s <;> exact dims
    · cases t <;> cases s <;> simp_all [fieldsOf, ← BitVec.toNat_inj]
  -- the others, where DIR may choose the form
  all_goals
    simp only [decodeIf_eq_ok_iff, Bool.and_eq_true, Bool.not_eq_true', beq_iff_eq] at h
    obtain ⟨unused, rfl⟩ := h
    constructor
    · cases dir <;> rfl
    · cases dir <;> simp_all [fieldsOf, ← BitVec.toNat_inj]

/-- A word decodes to a command exactly when it is the word of that command, well formed (30_encoding.md R98, R101). -/
theorem decode_eq_ok_iff {w : Word} {i : Instr} : decode w = .ok i ↔ i.wellFormed = true ∧ encode i = w := by
  constructor
  · intro h
    by_cases clear : reservedClear w = true
    · rw [decode, if_pos clear] at h
      obtain ⟨wf, fields⟩ := of_decodeFields h
      exact ⟨wf, eq_of_cmdFields_eq (reservedClear_encode i) clear ((cmdFields_encode i).trans fields)⟩
    · rw [decode, if_neg clear] at h
      cases h
  · rintro ⟨wf, rfl⟩
    rw [decode, if_pos (reservedClear_encode i), cmdFields_encode, decodeFields_fieldsOf wf]

/-- Settles O2: a well-formed command's word is its own. -/
theorem decodeOfEncode : Obligations.DecodeOfEncode := fun _ wf => decode_eq_ok_iff.mpr ⟨wf, rfl⟩

/-- Settles O3: every bit of a legal word is a reserved bit or part of a field that the command fixes. -/
theorem encodeOfDecode : Obligations.EncodeOfDecode := fun _ _ => decode_eq_ok_iff.mp

/-- Settles O1: each word is evaluated. -/
theorem specWordsDecode : Obligations.SpecWordsDecode := by
  unfold Obligations.SpecWordsDecode
  decide

end Sys2Proof.Machine
end

section
/-! PROOFS. Which words the decoder refuses (30_encoding.md R99). -/

namespace Sys2Proof.Machine

/-- The field values that R99 calls illegal, whatever the reserved bits. -/
def illegalFields (f : CmdFields) : Prop :=
  f.opc.toNat ∈ [0x7, 0xD, 0xE, 0xF] ∨
  ((f.idx ≠ 0#4 ∧ f.opc.toNat ≠ 0x3) ∨ (f.dir = true ∧ f.opc.toNat ≠ 0x4) ∨
    (f.t = true ∧ f.opc.toNat ∉ [0x9, 0xA]) ∨ (f.s = true ∧ f.opc.toNat ∉ [0xB, 0xC])) ∨
  (f.opc.toNat ∈ [0x8, 0x9, 0xA, 0xB, 0xC] ∧
    (¬ (1 ≤ f.n.toNat ∧ f.n.toNat ≤ 4) ∨ ¬ (1 ≤ f.m.toNat ∧ f.m.toNat ≤ 4))) ∨
  (f.opc.toNat ≤ 6 ∧ (f.n ≠ 0#3 ∨ f.m ≠ 0#3))

theorem exists_decodeIf_eq_error_iff {ok : Bool} {why : Illegal} {i : Instr} :
    (∃ e, decodeIf ok why i = .error e) ↔ ok = false := by
  cases ok <;> simp [decodeIf]

theorem dimOk_eq_false_iff (n m : BitVec 3) :
    dimOk n m = false ↔ ¬ (1 ≤ n.toNat ∧ n.toNat ≤ 4) ∨ ¬ (1 ≤ m.toNat ∧ m.toNat ≤ 4) := by
  simp only [← Bool.not_eq_true, dimOk, Bool.and_eq_true, decide_eq_true_eq, ← not_and_or, and_assoc]

theorem exists_decodeMatrix_eq_error_iff {f : CmdFields} {unusedClear : Bool} {mk : BitVec 3 → BitVec 3 → Instr} :
    (∃ e, decodeMatrix f unusedClear mk = .error e) ↔ unusedClear = false ∨ dimOk f.n f.m = false := by
  cases unusedClear <;> simp [decodeMatrix, exists_decodeIf_eq_error_iff]

theorem exists_decodeFields_eq_error_iff (f : CmdFields) : (∃ e, decodeFields f = .error e) ↔ illegalFields f := by
  have opcode : f.opc.toNat < 16 := f.opc.isLt
  simp only [decodeFields, illegalFields]
  generalize f.opc.toNat = k at opcode
  interval_cases k <;>
    simp [exists_decodeIf_eq_error_iff, exists_decodeMatrix_eq_error_iff, dimOk_eq_false_iff, or_assoc,
      Bool.and_eq_false_iff, -Bool.and_eq_false_imp, -not_and]

theorem reservedClear_eq_false_iff (w : Word) : reservedClear w = false ↔
    w.getLsbD 11 = true ∨ w.getLsbD 15 = true ∨ w.extractLsb' 19 13 ≠ 0#13 := by
  simp [reservedClear, bitSlice, or_assoc, Bool.and_eq_false_iff, -Bool.and_eq_false_imp]

theorem exists_decode_eq_error_iff (w : Word) :
    (∃ e, decode w = .error e) ↔ reservedClear w = false ∨ illegalFields (cmdFields w) := by
  rw [← exists_decodeFields_eq_error_iff, decode]
  cases reservedClear w <;> simp

/-- Settles O4: the reserved bits are tested first, then each opcode refuses the fields of R99's classes. -/
theorem illegalWordClasses : Obligations.IllegalWordClasses := by
  intro w
  rw [exists_decode_eq_error_iff, reservedClear_eq_false_iff, illegalFields, or_left_comm]
  rfl

end Sys2Proof.Machine
end

section
/-! PROOFS. The assembler reads back what disassembly prints (30_encoding.md R100, R104). -/

namespace Sys2Proof.Machine

/-- The text up to a first space is split off there. -/
theorem splitSpace_append_space {name : List Char} (spaceless : ' ' ∉ name) (rest : List Char) :
    splitSpace (name ++ ' ' :: rest) = (name, some rest) := by
  induction name with
  | nil => rfl
  | cons c cs ih =>
    obtain ⟨first, others⟩ := not_or.mp (List.mem_cons.not.mp spaceless)
    simp [splitSpace, ih others, Ne.symm first]

theorem splitSpace_of_spaceless {name : List Char} (spaceless : ' ' ∉ name) : splitSpace name = (name, none) := by
  induction name with
  | nil => rfl
  | cons c cs ih =>
    obtain ⟨first, others⟩ := not_or.mp (List.mem_cons.not.mp spaceless)
    simp [splitSpace, ih others, Ne.symm first]

/-! Commands. -/

theorem space_notMem_mnemonicOf (i : Instr) : ' ' ∉ mnemonicOf i := by
  cases i <;> decide +revert

theorem mnemonicOf_ne_word (i : Instr) : mnemonicOf i ≠ ".word".toList := by
  cases i <;> decide +revert

/-- The operand text of a command without the space before it, if the command has one (30_encoding.md R100). -/
def operandOf : Instr → Option (List Char)
  | .round idx => some (decimalText idx.toNat)
  | i => i.dims.map fun (n, m) => [digitChar n.toNat, 'x', digitChar m.toNat]

theorem operandText_eq (i : Instr) : operandText i = (operandOf i).elim [] (' ' :: ·) := by
  cases i <;> rfl

theorem map_toLower_decimalText (idx : BitVec 4) :
    (decimalText idx.toNat).map Char.toLower = decimalText idx.toNat := by
  decide +revert

theorem toLower_digitChar (k : BitVec 3) : (digitChar k.toNat).toLower = digitChar k.toNat := by
  decide +revert

/-- Commands are printed in lower case. -/
theorem map_toLower_printCommand (i : Instr) : (printCommand i).map Char.toLower = printCommand i := by
  have mnemonic : (mnemonicOf i).map Char.toLower = mnemonicOf i := by cases i <;> rfl
  have operand : (operandText i).map Char.toLower = operandText i := by
    cases i with
    | nop | ks | ffunc | blockEnc | blockDec | iperm | fperm => rfl
    | round idx => exact congrArg (' ' :: ·) (map_toLower_decimalText idx)
    | _ n m => simp [operandText, Instr.dims, toLower_digitChar]
  rw [printCommand, List.map_append, mnemonic, operand]

theorem splitSpace_printCommand (i : Instr) : splitSpace (printCommand i) = (mnemonicOf i, operandOf i) := by
  rw [printCommand, operandText_eq]
  cases operandOf i with
  | none => exact (List.append_nil _).symm ▸ splitSpace_of_spaceless (space_notMem_mnemonicOf i)
  | some text => exact splitSpace_append_space (space_notMem_mnemonicOf i) text

theorem readIndex_decimalText (idx : BitVec 4) : readIndex (decimalText idx.toNat) = some idx := by
  decide +revert

theorem readDim_digits {n m : BitVec 3} (ok : dimOk n m = true) :
    readDim [digitChar n.toNat, 'x', digitChar m.toNat] = some (n, m) := by
  decide +revert

theorem readParts_of_matrix {name text : List Char} {mk : BitVec 3 → BitVec 3 → Instr} {n m : BitVec 3}
    (named : matrixMnemonic name = some mk) (dims : readDim text = some (n, m)) :
    readParts name (some text) = some (mk n m) := by
  have notRound : name ≠ "round".toList := by
    rintro rfl
    cases named
  simp only [readParts, if_neg notRound, named, dims]

/-- A well-formed command is read from its mnemonic and its operand. -/
theorem readParts_printed {i : Instr} (wf : i.wellFormed = true) :
    readParts (mnemonicOf i) (operandOf i) = some i := by
  cases i with
  | nop | ks | ffunc | blockEnc | blockDec | iperm | fperm => rfl
  | round idx => exact congrArg (Option.map Instr.round) (readIndex_decimalText idx)
  | _ n m => exact readParts_of_matrix rfl (readDim_digits wf)

theorem assemble_printCommand {i : Instr} (wf : i.wellFormed = true) :
    assemble (printCommand i) = some (encode i) := by
  rw [assemble, map_toLower_printCommand, splitSpace_printCommand]
  simp only [if_neg (mnemonicOf_ne_word i), readParts_printed wf, Option.map_some]

/-! Raw words. -/

theorem hexValue_toLower_hexDigit {k : Nat} (h : k < 16) : hexValue (hexDigit k).toLower = some k := by
  interval_cases k <;> decide

/-- The hexadecimal number with the digits `ds` is read as their value. -/
theorem hexNumber_hexDigits {ds : List Nat} (digits : ∀ d ∈ ds, d < 16) (acc : Nat) :
    hexNumber acc (ds.map fun d => (hexDigit d).toLower) = some (ds.foldl (fun acc d => 16 * acc + d) acc) := by
  induction ds generalizing acc with
  | nil => rfl
  | cons d ds ih =>
    obtain ⟨first, others⟩ := List.forall_mem_cons.mp digits
    rw [List.map_cons, hexNumber, hexValue_toLower_hexDigit first, List.foldl_cons]
    exact ih others _

/-- The eight hexadecimal digits of a word, the most significant first. -/
def nibbles (w : Word) : List Nat := [7, 6, 5, 4, 3, 2, 1, 0].map fun k => (w.extractLsb' (4 * k) 4).toNat

theorem lt_of_mem_nibbles {w : Word} {d : Nat} (h : d ∈ nibbles w) : d < 16 := by
  obtain ⟨k, -, rfl⟩ := List.mem_map.mp h
  exact BitVec.isLt _

theorem foldl_nibbles (w : Word) : (nibbles w).foldl (fun acc d => 16 * acc + d) 0 = w.toNat := by
  have := w.isLt
  simp only [nibbles, List.map_cons, List.map_nil, List.foldl_cons, List.foldl_nil, BitVec.extractLsb'_toNat,
    Nat.shiftRight_eq_div_pow]
  omega

theorem map_toLower_printRaw (w : Word) : (printRaw w).map Char.toLower =
    ".word".toList ++ ' ' :: '0' :: 'x' :: (nibbles w).map fun d => (hexDigit d).toLower := rfl

theorem readHex32_nibbles (w : Word) :
    readHex32 ('0' :: 'x' :: (nibbles w).map fun d => (hexDigit d).toLower) = some w := by
  have length : (nibbles w).length = 8 := rfl
  rw [readHex32, List.length_map, length, if_pos (by decide), hexNumber_hexDigits (fun _ => lt_of_mem_nibbles),
    foldl_nibbles, Option.map_some, BitVec.ofNat_toNat, BitVec.setWidth_eq]

theorem assemble_printRaw (w : Word) : assemble (printRaw w) = some w := by
  rw [assemble, map_toLower_printRaw, splitSpace_append_space (by decide)]
  exact readHex32_nibbles w

/-- Settles O5: a legal word is the word of the command it prints, and an illegal one prints its own digits. -/
theorem assembleOfDisassemble : Obligations.AssembleOfDisassemble := by
  intro w
  cases h : decode w with
  | ok i =>
    have text : disassemble w = printCommand i := by rw [disassemble, h]
    obtain ⟨wf, word⟩ := decode_eq_ok_iff.mp h
    refine ⟨?_, nofun, ?_⟩
    · rintro _ ⟨⟩
      exact text
    · rw [text, assemble_printCommand wf, word]
  | error e =>
    have text : disassemble w = printRaw w := by rw [disassemble, h]
    exact ⟨nofun, fun _ _ => text, text ▸ assemble_printRaw w⟩

end Sys2Proof.Machine
end

section
/-! PROOFS. The bit permutations: what `permute` does with any table, and the two block permutations
(40_des_primitives.md R120, R130, R131, R138). -/

namespace Sys2Proof.Machine

theorem position_succ {n : Nat} (v : BitVec n) (i : Nat) : position v (i + 1) = v.getMsbD i := rfl

/-- R120, for a result as wide as its table is long. -/
theorem position_permute {n m : Nat} (v : BitVec n) {table : List Nat} (width : table.length = m) {i : Nat} (h : i < m) :
    position (permute m v table) (i + 1) = position v (table.getD i 0) := by
  subst width
  have chosen : table.length - 1 - i < table.length := by omega
  have mirrored : table.length - 1 - (table.length - 1 - i) = i := by omega
  rw [position_succ, permute, BitVec.getMsbD, BitVec.getLsbD_ofNat, permuteFold_testBit, dif_pos chosen]
  simp [h, chosen, mirrored]

/-- Values with the same positions 1 to n are equal. -/
theorem eq_of_position_eq {n : Nat} {v w : BitVec n} (h : ∀ i < n, position v (i + 1) = position w (i + 1)) : v = w :=
  BitVec.eq_of_getMsbD_eq fun i hi => h i hi

/-- `u` inverts `t`: both have n entries, those of `u` are positions 1 to n, and entry `u[i]` of `t` is i. -/
def tableInverts (n : Nat) (u t : List Nat) : Prop :=
  t.length = n ∧ u.length = n ∧
    ∀ i < n, (1 ≤ u.getD i 0 ∧ u.getD i 0 ≤ n) ∧ t.getD (u.getD i 0 - 1) 0 = i + 1

theorem permute_permute_of_tableInverts {n : Nat} {u t : List Nat} (inverts : tableInverts n u t) (v : BitVec n) :
    permute n (permute n v t) u = v := by
  obtain ⟨widthT, widthU, entries⟩ := inverts
  refine eq_of_position_eq fun i hi => ?_
  obtain ⟨⟨positive, inRange⟩, inverse⟩ := entries i hi
  have source : u.getD i 0 - 1 < n := by omega
  calc position (permute n (permute n v t) u) (i + 1)
      = position (permute n v t) (u.getD i 0) := position_permute _ widthU hi
    _ = position (permute n v t) (u.getD i 0 - 1 + 1) := by rw [Nat.sub_add_cancel positive]
    _ = position v (t.getD (u.getD i 0 - 1) 0) := position_permute _ widthT source
    _ = position v (i + 1) := by rw [inverse]

theorem tableFP_inverts_tableIP : tableInverts 64 tableFP tableIP := by
  unfold tableInverts
  decide

theorem tableIP_inverts_tableFP : tableInverts 64 tableIP tableFP := by
  unfold tableInverts
  decide

theorem finalPermutation_initialPermutation (x : Block) : finalPermutation (initialPermutation x) = x :=
  permute_permute_of_tableInverts tableFP_inverts_tableIP x

theorem initialPermutation_finalPermutation (x : Block) : initialPermutation (finalPermutation x) = x :=
  permute_permute_of_tableInverts tableIP_inverts_tableFP x

/-- Settles O34: the bits of the fold are the chosen positions (`permuteFold_testBit`), and the entries of the six
tables are checked one by one. -/
theorem permuteTakesTablePositions : Obligations.PermuteTakesTablePositions := by
  refine ⟨fun n v table _ i h => ?positions, ?block, ?half, ?halves⟩
  case positions => rw [position_permute v rfl h, List.getD_eq_getElem _ _ h]
  case block =>
    simp only [List.forall_mem_append]
    exact ⟨⟨by decide, by decide⟩, by decide⟩
  case half =>
    simp only [List.forall_mem_append]
    exact ⟨by decide, by decide⟩
  case halves => decide

/-- Settles O35: the tables invert each other entry by entry, so each composition takes position i from
position i. -/
theorem finalPermutationInvertsInitial : Obligations.FinalPermutationInvertsInitial := by
  obtain ⟨-, -, entries⟩ := tableIP_inverts_tableFP
  exact ⟨fun i => (entries i i.isLt).2,
    fun x => ⟨finalPermutation_initialPermutation x, initialPermutation_finalPermutation x⟩⟩

end Sys2Proof.Machine
end

section
/-! PROOFS. The key schedule in closed form, and the key positions it reads (40_des_primitives.md R122, R134, R136;
41_des_key_schedule.md R150). -/

namespace Sys2Proof.Machine

/-- A rotation to the left moves position i + k, counted around the 28 positions, to position i. -/
theorem position_rotl28 (v : BitVec 28) {k i : Nat} (turn : k ≤ 28) (h : i < 28) :
    position (rotl28 v k) (i + 1) = position v ((i + k) % 28 + 1) := by
  have outside {j : Nat} (ge : 28 ≤ j) : v.getMsbD j = false := BitVec.getMsbD_of_ge v j ge
  simp only [position_succ, rotl28, BitVec.getMsbD_or, BitVec.getMsbD_shiftLeft, BitVec.getMsbD_ushiftRight, h]
  by_cases stays : i + k < 28
  · have below : i < 28 - k := by omega
    simp [Nat.mod_eq_of_lt stays, below]
  · have above : ¬ i < 28 - k := by omega
    have source : (i + k) % 28 = i - (28 - k) := by omega
    simp [outside (not_lt.mp stays), source, above]

theorem rotl28_zero (v : BitVec 28) : rotl28 v 0 = v := by
  rw [rotl28, BitVec.shiftLeft_zero, BitVec.ushiftRight_eq_zero le_rfl, BitVec.or_zero]

theorem rotl28_full (v : BitVec 28) : rotl28 v 28 = v := by
  rw [rotl28, BitVec.shiftLeft_eq_zero le_rfl, Nat.sub_self, BitVec.ushiftRight_zero, BitVec.zero_or]

theorem rotl28_rotl28 (v : BitVec 28) {a b : Nat} (turn : a + b ≤ 28) :
    rotl28 (rotl28 v a) b = rotl28 v (a + b) := by
  refine eq_of_position_eq fun i hi => ?_
  rw [position_rotl28 _ (by omega) hi, position_rotl28 _ (by omega) (Nat.mod_lt _ (by decide)),
    position_rotl28 _ turn hi, Nat.mod_add_mod, Nat.add_assoc, Nat.add_comm b a]

/-- The round key of key halves rotated by `a` (41_des_key_schedule.md R150). -/
def rotatedKey (c d : BitVec 28) (a : Nat) : Subkey := permute 48 (rotl28 c a ++ rotl28 d a) tablePC2

/-- Rounds that start from halves rotated by `a` use the running sums of their shifts from `a` on; the sums stay within
one full turn. -/
theorem rotatedKey_cons_scheduleFrom (c d : BitVec 28) {a : Nat} {shifts : List Nat} (turn : a + shifts.sum ≤ 28) :
    rotatedKey c d a :: scheduleFrom (rotl28 c a) (rotl28 d a) shifts =
      (shifts.scanl (· + ·) a).map (rotatedKey c d) := by
  induction shifts generalizing a with
  | nil => rfl
  | cons k ks ih =>
    rw [List.sum_cons] at turn
    have rotated (v : BitVec 28) : rotl28 (rotl28 v a) k = rotl28 v (a + k) := rotl28_rotl28 v (by omega)
    rw [List.scanl_cons, List.map_cons, ← ih (by omega), scheduleFrom, rotated, rotated]
    rfl

theorem keySchedule_eq_map_cumulativeShift (key : Block) :
    keySchedule key = cumulativeShift.map
      (rotatedKey (firstHalf 28 (permute 56 key tablePC1)) (secondHalf 28 (permute 56 key tablePC1))) := by
  have sums : tableShift.scanl (· + ·) 0 = 0 :: cumulativeShift := by decide
  have keys := rotatedKey_cons_scheduleFrom (firstHalf 28 (permute 56 key tablePC1))
    (secondHalf 28 (permute 56 key tablePC1)) (a := 0) (shifts := tableShift) (by decide)
  rw [sums, List.map_cons, rotl28_zero, rotl28_zero] at keys
  exact List.tail_eq_of_cons_eq keys

/-- Settles O37: the rotations of the rounds add up, and 28 places are one full turn. -/
theorem keyScheduleByCumulativeShift : Obligations.KeyScheduleByCumulativeShift := by
  refine ⟨fun key => ?keys, rotl28_full⟩
  rw [keySchedule_eq_map_cumulativeShift]
  refine ⟨List.length_map _, fun r => ?_⟩
  have inside : r.val < cumulativeShift.length := r.isLt
  rw [List.getD_eq_getElem _ _ (by simpa using inside), List.getElem_map, List.getD_eq_getElem _ _ inside]
  rfl

/-- A permutation depends on the positions that its table names only (40_des_primitives.md R120). -/
theorem permute_congr {n m : Nat} {v w : BitVec n} {table : List Nat} (h : ∀ k ∈ table, position v k = position w k) :
    permute m v table = permute m w table :=
  congrArg (BitVec.ofNat m) (List.foldl_ext _ _ 0 fun acc k hk => by rw [h k hk])

theorem tablePC1_skips_parity : ∀ k ∈ tablePC1, 1 ≤ k ∧ k ≤ 64 ∧ k % 8 ≠ 0 := by decide

/-- Settles O38: the schedule reads the key through PC-1, which names no parity position. -/
theorem parityPositionsHaveNoEffect : Obligations.ParityPositionsHaveNoEffect := by
  intro k₁ k₂ agree
  have chosen : permute 56 k₁ tablePC1 = permute 56 k₂ tablePC1 := permute_congr fun k hk => by
    obtain ⟨positive, inRange, notParity⟩ := tablePC1_skips_parity k hk
    exact agree k positive inRange notParity
  rw [keySchedule, keySchedule, chosen]

end Sys2Proof.Machine
end

section
/-! PROOFS. The completion of a command whose form and operands raise no error, and KS (60_exceptions.md R262;
41_des_key_schedule.md R151). -/

namespace Sys2Proof.Machine

theorem exec_of_no_error {i : Instr} {s : State} (form : shapeError i = none)
    (ready : operandsReady (operandRegs i) s = true) (values : operandError i s = none) :
    exec i s = .next (completeWith 0#4 (resultState i s)) := by
  rw [exec_eq, withShape, form, withOperands_ready ready, completedState, values]

theorem completedOk_resultState (i : Instr) (s : State) : completedOk i s (completeWith 0#4 (resultState i s)) := by
  obtain ⟨status, -, -, environment⟩ := resultState_environment i s
  refine ⟨?status, environment, fun r outside notStatus => ?frame, fun r => mem_resultState_written⟩
  case status => rw [completeWith_status, status]; rfl
  case frame => rw [readReg_completeWith notStatus, readReg_resultState outside]

/-- SK_HI[r] and SK_LO[r] read as the high 16 and the low 32 bits of SK[r] (10_state.md R35). -/
theorem readReg_skHi_eq_subkey (r : Fin 16) (s : State) :
    readReg (.skHi r) s = ((subkey r s).extractLsb' 32 16).setWidth 32 := by
  rw [subkey, BitVec.extractLsb'_append_eq_left, readReg]

theorem readReg_skLo_eq_subkey (r : Fin 16) (s : State) : readReg (.skLo r) s = (subkey r s).extractLsb' 0 32 := by
  rw [subkey, BitVec.extractLsb'_append_eq_right, readReg]

@[simp] theorem subkey_completeWith (r : Fin 16) (c : BitVec 4) (s : State) :
    subkey r (completeWith c s) = subkey r s := rfl

@[simp] theorem subkey_writeSubkeys (r : Fin 16) (ks : List Subkey) (s : State) :
    subkey r (writeSubkeys ks s) = ks.getD r.val 0#48 := by
  simp only [subkey, writeSubkeys_skHi, writeSubkeys_skLo, Vector.getElem_ofFn]
  exact (BitVec.extractLsb'_append_extractLsb'_eq_extractLsb' rfl).trans BitVec.extractLsb'_eq_self

/-- Settles O40: the command writes the schedule of KEY, and each half of a subkey reads back from its register. -/
theorem ksWritesSubkeyFile : Obligations.KsWritesSubkeyFile := by
  intro s ready
  refine ⟨_, exec_of_no_error rfl ready rfl, completedOk_resultState .ks s, fun r => ⟨?key, ?high, ?low⟩⟩
  case key => rw [subkey_completeWith, resultState, subkey_writeSubkeys, keyValue]
  case high => exact readReg_skHi_eq_subkey r _
  case low => exact readReg_skLo_eq_subkey r _

end Sys2Proof.Machine
end

section
/-! PROOFS. The round function bit by bit (40_des_primitives.md R124, R125; 42_des_round.md R160). -/

namespace Sys2Proof.Machine

/-- `position_permute` with the position counted from 1. -/
theorem position_permute_of_pos {n m : Nat} (v : BitVec n) {table : List Nat} (width : table.length = m) {i : Nat}
    (first : 1 ≤ i) (last : i ≤ m) : position (permute m v table) i = position v (table.getD (i - 1) 0) := by
  have moved := position_permute v width (i := i - 1) (by omega)
  rwa [Nat.sub_add_cancel first] at moved

theorem position_xor {n : Nat} (v w : BitVec n) (i : Nat) : position (v ^^^ w) i = (position v i ^^ position w i) :=
  BitVec.getMsbD_xor

/-- Position j of group g + 1 (40_des_primitives.md R124). -/
theorem position_group6 (x : Subkey) {g j : Nat} (hg : g < 8) (first : 1 ≤ j) (last : j ≤ 6) :
    position (group6 x (g + 1)) j = position x (6 * g + j) := by
  have inGroup : j - 1 < 6 := by omega
  have inside : 6 * g + j - 1 < 48 := by omega
  have mirrored : 48 - 6 * (g + 1) + (6 - 1 - (j - 1)) = 48 - 1 - (6 * g + j - 1) := by omega
  have inRange : 6 - 1 - (j - 1) < 6 := by omega
  simp [position, group6, BitVec.getMsbD, inGroup, inside, mirrored, inRange]

/-- Four-bit groups shifted in one after another, the head of the list last: its group q holds bits 4q to 4q + 3. -/
theorem getLsbD_foldr_groups {ι : Type} (out : ι → BitVec 4) (is : List ι) {j : Nat} (h : j < 32) :
    (is.foldr (fun i (y : Half) => (y <<< 4) ||| (out i).setWidth 32) 0#32).getLsbD j =
      ((is.map out).getD (j / 4) 0#4).getLsbD (j % 4) := by
  induction is generalizing j with
  | nil => simp
  | cons i is ih =>
    rw [List.foldr_cons, BitVec.getLsbD_or, BitVec.getLsbD_shiftLeft, BitVec.getLsbD_setWidth, List.map_cons]
    by_cases low : j < 4
    · simp [low, h, Nat.div_eq_of_lt low, Nat.mod_eq_of_lt low]
    · have above : (out i).getLsbD j = false := BitVec.getLsbD_of_ge _ j (not_lt.mp low)
      have next : j / 4 = (j - 4) / 4 + 1 := by omega
      have offset : (j - 4) % 4 = j % 4 := by omega
      rw [ih (by omega), offset, next, List.getD_cons_succ, above]
      simp [low, h]

/-- The output of S-box i for a 48-bit value (42_des_round.md R160). -/
def sboxOutput (x : Subkey) (i : Nat) : BitVec 4 := sbox i (group6 x i)

theorem sboxLayer_eq_foldr (x : Subkey) : sboxLayer x =
    [8, 7, 6, 5, 4, 3, 2, 1].foldr (fun i (y : Half) => (y <<< 4) ||| (sboxOutput x i).setWidth 32) 0#32 := rfl

/-- S1's output is positions 1 to 4, S8's is positions 29 to 32 (42_des_round.md R160). -/
theorem position_sboxLayer (x : Subkey) {p : Nat} (first : 1 ≤ p) (last : p ≤ 32) :
    position (sboxLayer x) p = position (sboxOutput x ((p - 1) / 4 + 1)) ((p - 1) % 4 + 1) := by
  have order : ∀ g < 8, ([8, 7, 6, 5, 4, 3, 2, 1].map (sboxOutput x)).getD (7 - g) 0#4 = sboxOutput x (g + 1) := by
    intro g hg
    interval_cases g <;> rfl
  have inside : p - 1 < 32 := by omega
  have inGroup : (p - 1) % 4 < 4 := Nat.mod_lt _ (by decide)
  have group : (32 - 1 - (p - 1)) / 4 = 7 - (p - 1) / 4 := by omega
  have offset : (32 - 1 - (p - 1)) % 4 = 4 - 1 - (p - 1) % 4 := by omega
  rw [position, BitVec.getMsbD, sboxLayer_eq_foldr, getLsbD_foldr_groups _ _ (by omega), group, offset,
    order _ (by omega), position_succ, BitVec.getMsbD]
  simp [inside, inGroup]

/-- Position j + 1 of an S-box output (40_des_primitives.md R125). -/
theorem position_sbox (i : Nat) (g : BitVec 6) {j : Nat} (h : j < 4) :
    position (sbox i g) (j + 1) = (sboxEntry i (sboxRow g) (sboxColumn g)).testBit (3 - j) := by
  have inside : 3 - j < 4 := by omega
  rw [position_succ, sbox, BitVec.getMsbD, BitVec.getLsbD_ofNat]
  simp [h, inside]

theorem tableE_length : tableE.length = 48 := rfl

theorem tableP_length : tableP.length = 32 := rfl

/-- What S-box g + 1 reads: positions 6g + 1 to 6g + 6 of E(R) xor K (42_des_round.md R160). -/
theorem position_group6_roundInput (r : Half) (k : Subkey) {g j : Nat} (hg : g < 8) (first : 1 ≤ j) (last : j ≤ 6) :
    position (group6 (permute 48 r tableE ^^^ k) (g + 1)) j =
      (position r (tableE.getD (6 * g + j - 1) 0) ^^ position k (6 * g + j)) := by
  rw [position_group6 _ hg first last, position_xor, position_permute_of_pos r tableE_length (by omega) (by omega)]

theorem tableP_inRange : ∀ i < 32, 1 ≤ tableP.getD i 0 ∧ tableP.getD i 0 ≤ 32 := by decide

/-- Settles O36: position i is followed back through P, its S-box and E. -/
theorem roundFunctionBitByBit : Obligations.RoundFunctionBitByBit := by
  intro r k i first last
  obtain ⟨positive, inRange⟩ := tableP_inRange (i - 1) (by omega)
  have box : (tableP.getD (i - 1) 0 - 1) / 4 < 8 := by omega
  rw [roundFunction, position_permute_of_pos _ tableP_length first last, position_sboxLayer _ positive inRange,
    sboxOutput, position_sbox _ _ (Nat.mod_lt _ (by decide)), sboxRow, sboxColumn]
  simp only [position_group6_roundInput r k box, Nat.reduceLeDiff]
  rfl

end Sys2Proof.Machine
end

section
/-! PROOFS. FFUNC and ROUND, and the undoing of a round by the host's swaps (42_des_round.md R161-R163). -/

namespace Sys2Proof.Machine

/-- Settles O41: the value is the one `resultState` names. -/
theorem ffuncComputesRoundFunction : Obligations.FfuncComputesRoundFunction := by
  intro s ready
  refine ⟨_, exec_of_no_error rfl ready rfl, completedOk_resultState .ffunc s, ?_⟩
  rw [completeWith_fOut, resultState, writeFOut_fOut, fkValue]

/-- FL and FR as the pair that a Feistel round takes. -/
def halves (s : State) : Half × Half := (s.fl, s.fr)

theorem exec_round {k : BitVec 4} {s : State} (ready : operandsReady (.fl :: .fr :: subkeyRegs k.toFin) s = true) :
    ∃ t, exec (.round k) s = .next t ∧ completedOk (.round k) s t ∧
      halves t = feistelRound (halves s) (subkey k.toFin s) :=
  ⟨_, exec_of_no_error rfl ready rfl, completedOk_resultState (.round k) s, rfl⟩

/-- Settles O42: one round on the pair writes both halves from the old values. -/
theorem roundUpdatesFeistelPair : Obligations.RoundUpdatesFeistelPair := by
  intro s k ready
  obtain ⟨t, run, completed, pair⟩ := exec_round ready
  obtain ⟨left, right⟩ := Prod.ext_iff.mp pair
  exact ⟨t, run, completed, left, right⟩

/-- A round is undone by the same round between two swaps (42_des_round.md R163). -/
theorem feistelRound_swap_feistelRound (p : Half × Half) (k : Subkey) :
    (feistelRound (feistelRound p k).swap k).swap = p := by
  simp [feistelRound]

theorem swapHalves_of_idle {s : State} (idle : s.status.busy = false) :
    swapHalves s = markWritten [.fr, .fl] { s with fl := s.fr, fr := s.fl } := by
  rw [swapHalves, writeOperand_of_idle .fl s.fr idle]
  exact writeOperand_of_idle .fr s.fl idle

theorem halves_swapHalves {s : State} (idle : s.status.busy = false) : halves (swapHalves s) = (halves s).swap := by
  rw [swapHalves_of_idle idle]
  rfl

theorem subkey_swapHalves (r : Fin 16) {s : State} (idle : s.status.busy = false) :
    subkey r (swapHalves s) = subkey r s := by
  rw [swapHalves_of_idle idle]
  rfl

/-- Operands stay readable while the switch stays and nothing becomes unwritten (70_reset_and_hazards.md R324). -/
theorem operandsReady_mono {rs : List Reg} {s t : State} (switch : t.cfg = s.cfg)
    (written : ∀ r ∈ s.written, r ∈ t.written) (ready : operandsReady rs s = true) :
    operandsReady rs t = true := by
  rw [operandsReady_iff] at ready ⊢
  rw [switch]
  exact ready.imp_right fun all r hr => written r (all r hr)

theorem operandsReady_swapHalves {rs : List Reg} {s : State} (idle : s.status.busy = false)
    (ready : operandsReady rs s = true) : operandsReady rs (swapHalves s) = true := by
  have switch : (swapHalves s).cfg = s.cfg := by rw [swapHalves_of_idle idle, markWritten_cfg]
  have written : ∀ r ∈ s.written, r ∈ (swapHalves s).written := fun r hr => by
    rw [swapHalves_of_idle idle]
    exact mem_markWritten.mpr (.inr hr)
  exact operandsReady_mono switch written ready

theorem idle_of_completedOk {i : Instr} {s t : State} (completed : completedOk i s t) : t.status.busy = false := by
  obtain ⟨status, -⟩ := completed
  rw [status, completedStatus]

theorem operandsReady_of_completedOk {i : Instr} {rs : List Reg} {s t : State} (completed : completedOk i s t)
    (ready : operandsReady rs s = true) : operandsReady rs t = true := by
  obtain ⟨-, ⟨-, -, switch, -⟩, -, written⟩ := completed
  exact operandsReady_mono switch (fun r hr => (written r).mpr (.inr hr)) ready

theorem subkey_of_completedOk_round {k : BitVec 4} {s t : State} (completed : completedOk (.round k) s t) (r : Fin 16) :
    subkey r t = subkey r s := by
  obtain ⟨-, -, frame, -⟩ := completed
  have high := frame (.skHi r) (by simp [resultRegs]) (by simp)
  have low := frame (.skLo r) (by simp [resultRegs]) (by simp)
  rw [subkey_eq, high, low, ← subkey_eq]

/-- Settles O43: the second round reads the halves swapped and the same subkey. -/
theorem roundIsUndoneBySwapping : Obligations.RoundIsUndoneBySwapping := by
  intro s k ready
  obtain ⟨t, first, completed, pair⟩ := exec_round ready
  have idle := idle_of_completedOk completed
  obtain ⟨u, second, completed', pair'⟩ :=
    exec_round (operandsReady_swapHalves idle (operandsReady_of_completedOk completed ready))
  have undone : halves (swapHalves u) = halves s := by
    rw [halves_swapHalves (idle_of_completedOk completed'), pair', halves_swapHalves idle, pair,
      subkey_swapHalves _ idle, subkey_of_completedOk_round completed, feistelRound_swap_feistelRound]
  obtain ⟨left, right⟩ := Prod.ext_iff.mp undone
  exact ⟨t, u, first, second, left, right⟩

end Sys2Proof.Machine
end

section
/-! PROOFS. The block transform: each half of the Feistel network undoes the other under the reversed subkeys
(43_des_block.md R180, R181, R183). -/

namespace Sys2Proof.Machine

theorem append_halves (x : Block) : firstHalf 32 x ++ secondHalf 32 x = x :=
  (BitVec.extractLsb'_append_extractLsb'_eq_extractLsb' rfl).trans BitVec.extractLsb'_eq_self

theorem splitBlock_joinSwapped (p : Half × Half) : splitBlock (joinSwapped p) = p.swap :=
  Prod.ext BitVec.extractLsb'_append_eq_left BitVec.extractLsb'_append_eq_right

theorem joinSwapped_swap_splitBlock (x : Block) : joinSwapped (splitBlock x).swap = x := append_halves x

/-- The rounds under the reversed subkeys lead back, with the halves swapped (43_des_block.md R183). -/
theorem foldl_feistelRound_reverse (ks : List Subkey) (p : Half × Half) :
    ks.reverse.foldl feistelRound (ks.foldl feistelRound p).swap = p.swap := by
  induction ks generalizing p with
  | nil => rfl
  | cons k ks ih =>
    rw [List.reverse_cons, List.foldl_append, List.foldl_cons (l := ks), ih (feistelRound p k), List.foldl_cons,
      List.foldl_nil, ← Prod.swap_inj, feistelRound_swap_feistelRound, Prod.swap_swap]

theorem desBlock_reverse_desBlock (x : Block) (ks : List Subkey) : desBlock (desBlock x ks) ks.reverse = x := by
  rw [desBlock, desBlock, initialPermutation_finalPermutation, splitBlock_joinSwapped, foldl_feistelRound_reverse,
    joinSwapped_swap_splitBlock, finalPermutation_initialPermutation]

end Sys2Proof.Machine
end

section
/-! PROOFS. The commands that write DOUT: BLOCK, IPERM and FPERM (43_des_block.md R182, R184, R185). -/

namespace Sys2Proof.Machine

theorem doutValue_writeDout (v : Block) (s : State) : doutValue (writeDout v s) = v :=
  append_halves v

/-- A command that completes with `v` written to DOUT. -/
def completesWithDout (i : Instr) (s t : State) (v : Block) : Prop :=
  exec i s = .next t ∧ completedOk i s t ∧ doutValue t = v

theorem exists_completesWithDout {i : Instr} {s : State} {v : Block} (form : shapeError i = none)
    (values : operandError i s = none) (result : resultState i s = writeDout v s)
    (ready : operandsReady (operandRegs i) s = true) : ∃ t, completesWithDout i s t v := by
  refine ⟨_, exec_of_no_error form ready values, completedOk_resultState i s, ?_⟩
  rw [result]
  exact doutValue_writeDout v s

theorem exec_iperm {s : State} (ready : operandsReady dinRegs s = true) :
    ∃ t, completesWithDout .iperm s t (initialPermutation (dinValue s)) :=
  exists_completesWithDout rfl rfl rfl ready

theorem exec_fperm {s : State} (ready : operandsReady dinRegs s = true) :
    ∃ t, completesWithDout .fperm s t (finalPermutation (dinValue s)) :=
  exists_completesWithDout rfl rfl rfl ready

theorem exec_blockEnc {s : State} (ready : operandsReady (dinRegs ++ skRegs) s = true) :
    ∃ t, completesWithDout .blockEnc s t (desBlock (dinValue s) (subkeys s)) :=
  exists_completesWithDout rfl rfl rfl ready

theorem exec_blockDec {s : State} (ready : operandsReady (dinRegs ++ skRegs) s = true) :
    ∃ t, completesWithDout .blockDec s t (desBlock (dinValue s) (subkeys s).reverse) :=
  exists_completesWithDout rfl rfl rfl ready

theorem subkeys_reverse (s : State) : (subkeys s).reverse = (List.finRange 16).map fun r => subkey (Fin.rev r) s := by
  rw [subkeys, ← List.map_reverse, List.finRange_reverse, List.map_map]
  rfl

/-- Settles O44: both commands write the transform, under the subkeys in their own order of use. -/
theorem blockTransformsDin : Obligations.BlockTransformsDin := by
  intro s ready
  refine ⟨exec_blockEnc ready, ?_⟩
  rw [← subkeys_reverse]
  exact exec_blockDec ready

/-- Settles O45: DOUT is the permuted DIN, whose position i is read off the table. -/
theorem permutationCommandsMoveBits : Obligations.PermutationCommandsMoveBits := by
  intro s ready
  obtain ⟨t, initial, completed, dout⟩ := exec_iperm ready
  obtain ⟨u, final, completed', dout'⟩ := exec_fperm ready
  refine ⟨⟨t, initial, completed, fun i => ?_⟩, ⟨u, final, completed', fun i => ?_⟩⟩
  · rw [dout]
    exact position_permute _ rfl i.isLt
  · rw [dout']
    exact position_permute _ rfl i.isLt

end Sys2Proof.Machine
end

section
/-! PROOFS. What the host's copies and the commands of R186 leave for the command after them: the block idle and the
subkey file as it was (20_memory.md R76; 43_des_block.md R183, R186). -/

namespace Sys2Proof.Machine

/-- `t` follows `s` in a host sequence: the block is idle, the switches and the subkey file are those of `s`, and
nothing has become unwritten. -/
structure KeepsSubkeys (s t : State) : Prop where
  idle : t.status.busy = false
  switches : t.cfg = s.cfg
  written : ∀ r ∈ s.written, r ∈ t.written
  subkey : ∀ r, subkey r t = subkey r s

theorem KeepsSubkeys.refl {s : State} (idle : s.status.busy = false) : KeepsSubkeys s s :=
  ⟨idle, rfl, fun _ => id, fun _ => rfl⟩

theorem KeepsSubkeys.trans {s t u : State} (h : KeepsSubkeys s t) (h' : KeepsSubkeys t u) : KeepsSubkeys s u :=
  ⟨h'.idle, h'.switches.trans h.switches, fun r hr => h'.written r (h.written r hr),
    fun r => (h'.subkey r).trans (h.subkey r)⟩

theorem KeepsSubkeys.ready {rs : List Reg} {s t : State} (h : KeepsSubkeys s t) (ready : operandsReady rs s = true) :
    operandsReady rs t = true :=
  operandsReady_mono h.switches h.written ready

theorem KeepsSubkeys.subkeys {s t : State} (h : KeepsSubkeys s t) : subkeys t = subkeys s :=
  List.map_congr_left fun r _ => h.subkey r

/-- A command keeps the subkeys unless they are its results. -/
theorem KeepsSubkeys.of_completedOk {i : Instr} {s t : State} (completed : completedOk i s t)
    (outside : ∀ r ∈ skRegs, r ∉ resultRegs i) : KeepsSubkeys s t := by
  have idle := idle_of_completedOk completed
  obtain ⟨-, ⟨-, -, switches, -⟩, frame, written⟩ := completed
  refine ⟨idle, switches, fun r hr => (written r).mpr (.inr hr), fun r => ?_⟩
  rw [subkey_eq, subkey_eq, frame _ (outside _ (mem_skRegs_hi r)) nofun, frame _ (outside _ (mem_skRegs_lo r)) nofun]

/-! The host's writes and copies. -/

theorem storeField_cfg (r : Reg) (w : Word) (s : State) : (storeField r w s).cfg = s.cfg := by
  cases r <;> rfl

theorem storeField_markWritten (r : Reg) (w : Word) (rs : List Reg) (s : State) :
    storeField r w (markWritten rs s) = markWritten rs (storeField r w s) := by
  cases r <;> rfl

theorem KeepsSubkeys.writeOperand {q : Reg} (outside : q ∉ skRegs) (w : Word) {s : State}
    (idle : s.status.busy = false) : KeepsSubkeys s (writeOperand q w s) := by
  rw [writeOperand_of_idle q w idle]
  split
  case isFalse => exact .refl idle
  case isTrue =>
    have frame : ∀ r ∈ skRegs, readReg r (markWritten [q] (storeField q w s)) = readReg r s := fun r hr => by
      rw [readReg_markWritten, readReg_storeField (ne_of_mem_of_not_mem hr outside)]
    refine ⟨?idle, ?switches, fun r hr => ?written, fun r => ?subkey⟩
    case idle => rw [markWritten_status, storeField_status, idle]
    case switches => rw [markWritten_cfg, storeField_cfg]
    case written =>
      rw [mem_markWritten, storeField_written]
      exact .inr hr
    case subkey => rw [subkey_eq, subkey_eq, frame _ (mem_skRegs_hi r), frame _ (mem_skRegs_lo r)]

theorem KeepsSubkeys.hostCopy {moves : List (Reg × Reg)} (outside : ∀ p ∈ moves, p.2 ∉ skRegs) {s : State}
    (idle : s.status.busy = false) : KeepsSubkeys s (hostCopy moves s) := by
  induction moves generalizing s with
  | nil => exact .refl idle
  | cons p moves ih =>
    obtain ⟨first, others⟩ := List.forall_mem_cons.mp outside
    have stored := KeepsSubkeys.writeOperand first (readReg p.1 s) idle
    exact stored.trans (ih others stored.idle)

/-- An idle block stores both words; the second is read as it stood before the first store. -/
theorem hostCopy_pair {a b p q : Reg} (writableP : hostWritable p = true) (writableQ : hostWritable q = true)
    (apart : b ≠ p) {s : State} (idle : s.status.busy = false) :
    hostCopy [(a, p), (b, q)] s =
      markWritten [q, p] (storeField q (readReg b s) (storeField p (readReg a s) s)) := by
  have idle' : (markWritten [p] (storeField p (readReg a s) s)).status.busy = false := by
    rw [markWritten_status, storeField_status, idle]
  have source : readReg b (markWritten [p] (storeField p (readReg a s) s)) = readReg b s := by
    rw [readReg_markWritten, readReg_storeField apart]
  rw [hostCopy, List.foldl_cons, List.foldl_cons, List.foldl_nil, writeOperand_of_idle p _ idle, if_pos writableP,
    source, writeOperand_of_idle q _ idle', if_pos writableQ, storeField_markWritten]
  rfl

/-- DIN takes DOUT. -/
theorem dinValue_hostCopy_dout {s : State} (idle : s.status.busy = false) :
    dinValue (hostCopy [(.doutHi, .dinHi), (.doutLo, .dinLo)] s) = doutValue s := by
  rw [hostCopy_pair rfl rfl (show Reg.doutLo ≠ .dinHi by decide) idle]
  rfl

/-- FL and FR take the halves of DOUT (43_des_block.md R186, step 2). -/
theorem halves_hostCopy_dout {s : State} (idle : s.status.busy = false) :
    halves (hostCopy [(.doutHi, .fl), (.doutLo, .fr)] s) = splitBlock (doutValue s) := by
  rw [hostCopy_pair rfl rfl (show Reg.doutLo ≠ .fl by decide) idle]
  exact (splitBlock_joinSwapped (s.doutLo, s.doutHi)).symm

/-- The swap-back: DIN takes FR, then FL (43_des_block.md R186, step 4). -/
theorem dinValue_hostCopy_halves {s : State} (idle : s.status.busy = false) :
    dinValue (hostCopy [(.fr, .dinHi), (.fl, .dinLo)] s) = joinSwapped (halves s) := by
  rw [hostCopy_pair rfl rfl (show Reg.fl ≠ .dinHi by decide) idle]
  rfl

/-- FL and FR may be read once the host has written them (70_reset_and_hazards.md R324). -/
theorem operandsReady_halves_hostCopy_dout {s : State} (idle : s.status.busy = false) :
    operandsReady [.fl, .fr] (hostCopy [(.doutHi, .fl), (.doutLo, .fr)] s) = true := by
  rw [hostCopy_pair rfl rfl (show Reg.doutLo ≠ .fl by decide) idle, operandsReady_iff]
  exact .inr fun r hr => mem_markWritten.mpr (.inl (List.mem_reverse.mpr hr))

end Sys2Proof.Machine
end

section
/-! PROOFS. The round trip of BLOCK on the machine, and its decomposition into rounds (43_des_block.md R183, R186). -/

namespace Sys2Proof.Machine

theorem operandsReady_append {rs qs : List Reg} {s : State} :
    operandsReady (rs ++ qs) s = true ↔ operandsReady rs s = true ∧ operandsReady qs s = true := by
  simp only [operandsReady_iff, List.forall_mem_append]
  exact or_and_left

theorem operandsReady_of_subset {rs qs : List Reg} {s : State} (subset : qs ⊆ rs) (ready : operandsReady rs s = true) :
    operandsReady qs s = true := by
  rw [operandsReady_iff] at ready ⊢
  exact ready.imp_right fun all r hr => all r (subset hr)

theorem subkeyRegs_subset_skRegs (r : Fin 16) : subkeyRegs r ⊆ skRegs :=
  fun _ hq => List.mem_flatMap.mpr ⟨r, List.mem_finRange r, hq⟩

/-- After a command that leaves the subkeys alone and a copy of DOUT, the next command finds DOUT as its DIN. -/
theorem copyDoutToDin_of_completedOk {i : Instr} {s t : State} (completed : completedOk i s t)
    (outside : ∀ r ∈ skRegs, r ∉ resultRegs i) :
    KeepsSubkeys s (hostCopy [(.doutHi, .dinHi), (.doutLo, .dinLo)] t) ∧
      dinValue (hostCopy [(.doutHi, .dinHi), (.doutLo, .dinLo)] t) = doutValue t := by
  have kept := KeepsSubkeys.of_completedOk completed outside
  exact ⟨kept.trans (.hostCopy (by decide) kept.idle), dinValue_hostCopy_dout kept.idle⟩

/-- Settles O46: the second command starts from the first one's result, with the same subkeys in the reversed order. -/
theorem blockRoundTrip : Obligations.BlockRoundTrip := by
  intro s ready
  constructor
  case left =>
    obtain ⟨t, encrypt, completed, result⟩ := exec_blockEnc ready
    obtain ⟨kept, operand⟩ := copyDoutToDin_of_completedOk completed (by decide)
    obtain ⟨u, decrypt, -, result'⟩ := exec_blockDec (kept.ready ready)
    refine ⟨t, u, encrypt, decrypt, ?_⟩
    rw [result', operand, result, kept.subkeys, desBlock_reverse_desBlock]
  case right =>
    obtain ⟨t, decrypt, completed, result⟩ := exec_blockDec ready
    obtain ⟨kept, operand⟩ := copyDoutToDin_of_completedOk completed (by decide)
    obtain ⟨u, encrypt, -, result'⟩ := exec_blockEnc (kept.ready ready)
    refine ⟨t, u, decrypt, encrypt, ?_⟩
    have undone := desBlock_reverse_desBlock (dinValue s) (subkeys s).reverse
    rw [List.reverse_reverse] at undone
    rw [result', operand, result, kept.subkeys, undone]

/-- ROUND r for each r of a list, in order. -/
def roundCommands (rs : List (Fin 16)) : List Instr := rs.map fun r => .round (BitVec.ofFin r)

theorem sixteenRounds_reverse : sixteenRounds.reverse = roundCommands (List.finRange 16).reverse :=
  List.map_reverse.symm

/-- ROUND commands run the Feistel rounds of their subkeys on FL and FR (42_des_round.md R162). -/
theorem runCommands_roundCommands (rs : List (Fin 16)) {s : State} (idle : s.status.busy = false)
    (pair : operandsReady [.fl, .fr] s = true) (file : operandsReady skRegs s = true) :
    ∃ t, runCommands (roundCommands rs) s = .next t ∧ KeepsSubkeys s t ∧
      halves t = (rs.map fun r => subkey r s).foldl feistelRound (halves s) := by
  induction rs generalizing s with
  | nil => exact ⟨s, rfl, .refl idle, rfl⟩
  | cons r rs ih =>
    have key := operandsReady_of_subset (subkeyRegs_subset_skRegs r) file
    have operands := operandsReady_append.mpr ⟨pair, key⟩
    obtain ⟨t, first, completed, halvesT⟩ := exec_round (k := BitVec.ofFin r) operands
    have kept : KeepsSubkeys s t := .of_completedOk completed (show ∀ q ∈ skRegs, q ∉ [Reg.fl, .fr] by decide)
    obtain ⟨u, others, kept', halvesU⟩ := ih kept.idle (kept.ready pair) (kept.ready file)
    have runs : runCommands (roundCommands (r :: rs)) s = .next u := by
      rw [roundCommands, List.map_cons, runCommands, first]
      exact others
    refine ⟨u, runs, kept.trans kept', ?_⟩
    simp only [halvesU, halvesT, kept.subkey, List.map_cons, List.foldl_cons]

/-- The host sequence of R186 with ROUNDs in any order: the block transform under their subkeys. -/
theorem hostSequence_eq_desBlock (rs : List (Fin 16)) {s : State} (ready : operandsReady (dinRegs ++ skRegs) s = true) :
    ∃ t₁ t₂ t₃, exec .iperm s = .next t₁ ∧
      runCommands (roundCommands rs) (hostCopy [(.doutHi, .fl), (.doutLo, .fr)] t₁) = .next t₂ ∧
      exec .fperm (hostCopy [(.fr, .dinHi), (.fl, .dinLo)] t₂) = .next t₃ ∧
      doutValue t₃ = desBlock (dinValue s) (rs.map fun r => subkey r s) := by
  obtain ⟨din, file⟩ := operandsReady_append.mp ready
  obtain ⟨t₁, initial, completed, dout⟩ := exec_iperm din
  have kept₁ : KeepsSubkeys s t₁ := .of_completedOk completed (by decide)
  have loaded := kept₁.trans (.hostCopy (moves := [(.doutHi, .fl), (.doutLo, .fr)]) (by decide) kept₁.idle)
  obtain ⟨t₂, rounds, kept₂, pair⟩ :=
    runCommands_roundCommands rs loaded.idle (operandsReady_halves_hostCopy_dout kept₁.idle) (loaded.ready file)
  have swapped :=
    (loaded.trans kept₂).trans (.hostCopy (moves := [(.fr, .dinHi), (.fl, .dinLo)]) (by decide) kept₂.idle)
  obtain ⟨t₃, final, -, dout'⟩ := exec_fperm (swapped.ready din)
  refine ⟨t₁, t₂, t₃, initial, rounds, final, ?_⟩
  rw [dout', dinValue_hostCopy_halves kept₂.idle, pair, halves_hostCopy_dout kept₁.idle, dout]
  simp only [loaded.subkey]
  rfl

/-- Settles O47: the rounds 0 to 15 use the subkeys of block.enc in its order, and 15 to 0 those of block.dec. -/
theorem blockEqualsSixteenRounds : Obligations.BlockEqualsSixteenRounds := by
  intro s ready p order
  obtain rfl | rfl := List.mem_pair.mp order
  case inl =>
    obtain ⟨t₁, t₂, t₃, initial, rounds, final, dout⟩ := hostSequence_eq_desBlock (List.finRange 16) ready
    obtain ⟨u, encrypt, -, dout'⟩ := exec_blockEnc ready
    exact ⟨t₁, t₂, t₃, u, initial, rounds, final, encrypt, dout.trans dout'.symm⟩
  case inr =>
    obtain ⟨t₁, t₂, t₃, initial, rounds, final, dout⟩ := hostSequence_eq_desBlock (List.finRange 16).reverse ready
    obtain ⟨u, decrypt, -, dout'⟩ := exec_blockDec ready
    rw [← sixteenRounds_reverse] at rounds
    rw [List.map_reverse] at dout
    exact ⟨t₁, t₂, t₃, u, initial, rounds, final, decrypt, dout.trans dout'.symm⟩

end Sys2Proof.Machine
end

section
/-! PROOFS. The cofactor expansion and the adjugate are Mathlib's, of the n x n block as a matrix
(44_matrix_inverse.md R200-R202). -/

namespace Sys2Proof.Machine

theorem sumBelow_eq_sum (n : Nat) (f : Nat → Int) : sumBelow n f = ∑ k : Fin n, f k :=
  Finset.sum_range f

/-- The n x n block as a matrix. -/
def blockMatrix (n : Nat) (a : IntMatrix) : Matrix (Fin n) (Fin n) Int := Matrix.of fun i j => a i j

theorem blockMatrix_apply {n : Nat} (a : IntMatrix) (i j : Fin n) : blockMatrix n a i j = a i j := rfl

theorem skipIndex_eq_succAbove {n : Nat} (k : Fin (n + 1)) (x : Fin n) : skipIndex k x = k.succAbove x := by
  simp only [skipIndex, Fin.succAbove, Fin.lt_def, Fin.val_castSucc]
  split <;> rfl

/-- `minor` removes a row and a column (44_matrix_inverse.md R201). -/
theorem blockMatrix_matMinor {n : Nat} (a : IntMatrix) (i j : Fin (n + 1)) :
    blockMatrix n (matMinor a i j) = (blockMatrix (n + 1) a).submatrix i.succAbove j.succAbove := by
  ext r c
  rw [Matrix.submatrix_apply, blockMatrix_apply, blockMatrix_apply, matMinor, skipIndex_eq_succAbove,
    skipIndex_eq_succAbove]

theorem matDet_eq_det : ∀ (n : Nat) (a : IntMatrix), matDet n a = (blockMatrix n a).det
  | 0, _ => Matrix.det_isEmpty.symm
  | 1, a => (Matrix.det_fin_one (blockMatrix 1 a)).symm
  | 2, a => (Matrix.det_fin_two (blockMatrix 2 a)).symm
  | n + 3, a => by
    rw [matDet, sumBelow_eq_sum, Matrix.det_succ_row_zero]
    refine Finset.sum_congr rfl fun j _ => ?_
    have minor := blockMatrix_matMinor a 0 j
    rw [Fin.val_zero, Fin.succAbove_zero] at minor
    rw [matDet_eq_det (n + 2), minor, blockMatrix_apply, Fin.val_zero, mul_comm (a 0 j)]

/-- Settles O49: by recursion on n, Mathlib's expansion along the first row. -/
theorem cofactorExpansionIsDeterminant : Obligations.CofactorExpansionIsDeterminant :=
  matDet_eq_det

/-- `adj(a)` holds the cofactors transposed, as Mathlib's adjugate does (44_matrix_inverse.md R202). -/
theorem matAdjugate_eq_adjugate {n : Nat} (a : IntMatrix) (i j : Fin n) :
    matAdjugate n a i j = (blockMatrix n a).adjugate i j := by
  cases n with
  | zero => exact i.elim0
  | succ n =>
    rw [matAdjugate, matCofactor, Nat.add_sub_cancel, matDet_eq_det, blockMatrix_matMinor,
      Matrix.adjugate_fin_succ_eq_det_submatrix]

theorem smul_one_apply {n : Nat} (d : Int) (i j : Fin n) :
    (d • (1 : Matrix (Fin n) (Fin n) Int)) i j = if i.val = j.val then d else 0 := by
  simp [Matrix.one_apply, Fin.ext_iff]

theorem sumBelow_mul_matAdjugate {n : Nat} (a : IntMatrix) (i j : Fin n) :
    (sumBelow n fun k => a i k * matAdjugate n a k j) = if i.val = j.val then matDet n a else 0 := by
  have product := congrFun (congrFun (Matrix.mul_adjugate (blockMatrix n a)) i) j
  rw [Matrix.mul_apply, smul_one_apply, ← matDet_eq_det] at product
  simpa only [sumBelow_eq_sum, matAdjugate_eq_adjugate, blockMatrix_apply] using product

theorem sumBelow_matAdjugate_mul {n : Nat} (a : IntMatrix) (i j : Fin n) :
    (sumBelow n fun k => matAdjugate n a i k * a k j) = if i.val = j.val then matDet n a else 0 := by
  have product := congrFun (congrFun (Matrix.adjugate_mul (blockMatrix n a)) i) j
  rw [Matrix.mul_apply, smul_one_apply, ← matDet_eq_det] at product
  simpa only [sumBelow_eq_sum, matAdjugate_eq_adjugate, blockMatrix_apply] using product

/-- Settles O50: Mathlib's `mul_adjugate` and `adjugate_mul`, element by element. -/
theorem adjugateTimesMatrix : Obligations.AdjugateTimesMatrix := fun _ a i j hi hj =>
  ⟨sumBelow_mul_matAdjugate a ⟨i, hi⟩ ⟨j, hj⟩, sumBelow_matAdjugate_mul a ⟨i, hi⟩ ⟨j, hj⟩⟩

end Sys2Proof.Machine
end

section
/-! PROOFS. The inverse search mod 26 (44_matrix_inverse.md R204). -/

namespace Sys2Proof.Machine

/-- The search finds the first inverse among 0..25, and nothing else. -/
theorem modInv26_eq_some_iff {d : Int} {i : Nat} :
    modInv26 d = some i ↔ (d * (i : Int)) % 26 = 1 ∧ i < 26 ∧ ∀ j < i, (d * (j : Int)) % 26 ≠ 1 := by
  simp [modInv26, List.find?_range_eq_some]

theorem modInv26_congr {d e : Int} (residue : d % 26 = e % 26) : modInv26 d = modInv26 e := by
  have products (i : Int) : (d * i) % 26 = (e * i) % 26 := by rw [Int.mul_emod, residue, ← Int.mul_emod]
  simp only [modInv26, products]

/-- An inverse gives a Bezout identity, so the factor is a unit (44_matrix_inverse.md R204). -/
theorem gcd_eq_one_of_inverse {d x : Int} (inverse : (d * x) % 26 = 1) : Int.gcd d 26 = 1 := by
  have division := Int.emod_add_mul_ediv (d * x) 26
  exact Int.isCoprime_iff_gcd_eq_one.mp ⟨x, -(d * x / 26), by linarith⟩

/-- `x` inverts `d` mod 26 and lies in the range of DINV (44_matrix_inverse.md R204). -/
def isDinv (d : Int) (x : Nat) : Prop := 1 ≤ x ∧ x ≤ 25 ∧ (d * (x : Int)) % 26 = 1

theorem isDinv_of_modInv26 {d : Int} {i : Nat} (found : modInv26 d = some i) : isDinv d i := by
  obtain ⟨small, inverse⟩ := modInv26_spec found
  have positive : i ≠ 0 := by
    rintro rfl
    simp at inverse
  exact ⟨Nat.pos_of_ne_zero positive, Nat.le_of_lt_succ small, inverse⟩

/-- The table of 44_matrix_inverse.md R204: each unit mod 26 with its inverse. -/
def inverseTable : List (Int × Nat) :=
  [(1, 1), (3, 9), (5, 21), (7, 15), (9, 3), (11, 19), (15, 7), (17, 23), (19, 11), (21, 5), (23, 17), (25, 25)]

theorem modInv26_inverseTable : ∀ p ∈ inverseTable, p.1 % 26 = p.1 ∧ modInv26 p.1 = some p.2 := by decide

/-- Settles O51: the search is a least search, an inverse exists just for the units, and it depends on the residue
of d alone, so the table's values are those of its twelve rows. -/
theorem leastModularInverse : Obligations.LeastModularInverse := by
  refine ⟨fun d coprime => ?least, fun d shared => ?noInverse, fun d p row residue => ?table⟩
  case least =>
    obtain ⟨i, found⟩ := Option.isSome_iff_exists.mp (modInv26_isSome coprime)
    obtain ⟨positive, small, inverse⟩ := isDinv_of_modInv26 found
    obtain ⟨-, -, least⟩ := modInv26_eq_some_iff.mp found
    exact ⟨i, found, positive, small, inverse, least⟩
  case noInverse =>
    refine Option.eq_none_iff_forall_ne_some.mpr fun i found => shared ?_
    exact gcd_eq_one_of_inverse (modInv26_spec found).2
  case table =>
    obtain ⟨reduced, found⟩ := modInv26_inverseTable p row
    rw [modInv26_congr (residue.trans reduced.symm), found]

end Sys2Proof.Machine
end

section
/-! PROOFS. What can stop a step (20_memory.md R61, R64; 60_exceptions.md R266; 70_reset_and_hazards.md R324;
93_implementation_defined.md U3, U6, U7). -/

namespace Sys2Proof.Machine

/-- The answers of the block in a state with sound STATUS: it goes on, the switch FAULT_ON_UNWRITTEN stops a command,
or the port refuses a transfer. -/
def lawfulAnswer (o : StepOutcome) : Prop :=
  goesOn o ∨ o = .fault .unwrittenOperand ∨ ∃ t, o = busFault t

theorem lawfulAnswer_next (t : State) : lawfulAnswer (.next t) := .inl ⟨t, rfl⟩

theorem lawfulAnswer_busFault (t : Transfer) : lawfulAnswer (busFault t) := .inr (.inr ⟨t, rfl⟩)

theorem lawfulAnswer_withOperands {rs : List Reg} {s : State} {go : StepOutcome} (h : lawfulAnswer go) :
    lawfulAnswer (withOperands rs s go) := by
  rw [withOperands]
  split
  · exact h
  · exact .inr (.inl rfl)

/-- No arm of `exec` is left without a meaning, and INV never searches in vain (93_implementation_defined.md U3). -/
theorem lawfulAnswer_exec (i : Instr) (s : State) : lawfulAnswer (exec i s) := by
  rw [exec_eq, withShape]
  split
  · exact lawfulAnswer_next _
  · exact lawfulAnswer_withOperands (lawfulAnswer_next _)

theorem lawfulAnswer_engineTurn (s : State) : lawfulAnswer (engineTurn s) := by
  rw [engineTurn, completion]
  split
  · split
    · exact lawfulAnswer_exec _ s
    · exact lawfulAnswer_next _
  · exact lawfulAnswer_next s

theorem lawfulAnswer_reservedAccess (t : Transfer) (s : State) : lawfulAnswer (reservedAccess t s) := by
  rw [reservedAccess]
  split
  · exact lawfulAnswer_busFault t
  · exact lawfulAnswer_next _

theorem lawfulAnswer_busTransfer (t : Transfer) (s : State) : lawfulAnswer (busTransfer t s) := by
  rw [busTransfer, acceptedAccess]
  split
  · split
    · exact lawfulAnswer_reservedAccess t s
    · exact lawfulAnswer_next _
  · exact lawfulAnswer_busFault t

theorem lawfulAnswer_handleEvent (e : Event) (s : State) : lawfulAnswer (handleEvent e s) := by
  unfold handleEvent
  split
  · cases e with
    | bus t => exact lawfulAnswer_busTransfer t s
    | engine => exact lawfulAnswer_engineTurn s
    | rstN level => exact lawfulAnswer_next _
  · exact lawfulAnswer_next _

theorem lawfulAnswer_step {s : State} (ok : statusOk s.status = true) : lawfulAnswer (step s) := by
  cases next : s.events with
  | nil => exact step_of_nil ok next ▸ lawfulAnswer_handleEvent .engine s
  | cons e rest => exact step_of_cons ok next ▸ lawfulAnswer_handleEvent e _

theorem step_of_broken_status {s : State} (broken : ¬ statusOk s.status = true) : step s = .fault .impossibleCode :=
  if_neg broken

/-- A lawful answer is none of the three that no run gives. -/
theorem lawfulAnswer.possible {o : StepOutcome} (h : lawfulAnswer o) :
    (∀ r, o ≠ .refused r) ∧ o ≠ .fault .inverseSearchStuck ∧ o ≠ .fault .impossibleCode := by
  rcases h with ⟨t, rfl⟩ | rfl | ⟨t, rfl⟩ <;> exact ⟨nofun, nofun, nofun⟩

/-- Settles O30: with sound STATUS every answer is lawful, and otherwise the step is the fault of R28. -/
theorem noImpossibleStop : Obligations.NoImpossibleStop := by
  intro s
  by_cases ok : statusOk s.status = true
  case pos =>
    obtain ⟨meant, found, sound⟩ := (lawfulAnswer_step ok).possible
    exact ⟨meant, found, fun _ => sound⟩
  case neg =>
    rw [step_of_broken_status ok]
    exact ⟨nofun, nofun, fun sound => absurd sound ok⟩

end Sys2Proof.Machine
end

section
/-! PROOFS. The errors that a matrix command raises: its shape, then INV's zero diagonal element, then a determinant
without an inverse (44_matrix_inverse.md R203, R207, R209, R210; 60_exceptions.md R264, R265). -/

namespace Sys2Proof.Machine

theorem exec_of_shapeError {i : Instr} {e : CmdError} (form : shapeError i = some e) (s : State) :
    exec i s = .next (failedState (errorCode e) s) := by
  rw [exec_eq, withShape, form, ← completeWith_eq_failedState]
  rfl

theorem exec_of_operandError {i : Instr} {s : State} {e : CmdError} (form : shapeError i = none)
    (ready : operandsReady (operandRegs i) s = true) (values : operandError i s = some e) :
    exec i s = .next (failedState (errorCode e) s) := by
  rw [exec_eq, withShape, form, withOperands_ready ready, completedState, values, ← completeWith_eq_failedState]

theorem dims_of_mem_matrixCommands {n m : BitVec 3} {i : Instr} (h : i ∈ matrixCommands n m) :
    i.dims = some (n, m) := by
  simp only [matrixCommands, List.mem_cons, List.not_mem_nil, or_false] at h
  rcases h with rfl | rfl | rfl | rfl | rfl | rfl | rfl | rfl | rfl <;> rfl

theorem shapeError_of_mismatch {i : Instr} {n m : BitVec 3} (dims : i.dims = some (n, m)) (legal : dimOk n m = true)
    (mismatch : n ≠ m) : shapeError i = some .invalidMatrixShape := by
  simp only [shapeError, dims, legal, if_true, if_neg mismatch]

theorem shapeError_of_square {i : Instr} {n : BitVec 3} (dims : i.dims = some (n, n)) (legal : dimOk n n = true) :
    shapeError i = none := by
  simp only [shapeError, dims, legal, if_true]

/-- Settles O48: every matrix command checks N and M before anything else. -/
theorem shapeMismatchFails : Obligations.ShapeMismatchFails := by
  intro n m s legal mismatch i matrix
  exact exec_of_shapeError (shapeError_of_mismatch (dims_of_mem_matrixCommands matrix) legal mismatch) s

theorem diagProduct_eq_zero_iff {n : Nat} {a : IntMatrix} : diagProduct n a = 0 ↔ ∃ k, k < n ∧ a k k = 0 := by
  simp only [diagProduct, List.prod_eq_zero_iff, List.mem_map, List.mem_range]

/-- INV and INV.T, by the field T (44_matrix_inverse.md R207). -/
def invInstr (t : Bool) (n : BitVec 3) : Instr := if t then .invT n n else .inv n n

theorem exists_eq_invInstr {i : Instr} {n : BitVec 3} (h : i ∈ [Instr.inv n n, Instr.invT n n]) :
    ∃ t, i = invInstr t n := by
  rcases List.mem_pair.mp h with rfl | rfl
  · exact ⟨false, rfl⟩
  · exact ⟨true, rfl⟩

theorem dims_invInstr (t : Bool) (n : BitVec 3) : (invInstr t n).dims = some (n, n) := by cases t <;> rfl

theorem operandRegs_invInstr (t : Bool) (n : BitVec 3) : operandRegs (invInstr t n) = maRegs n.toNat := by
  cases t <;> rfl

/-- INV's checks of its operands, in their order (44_matrix_inverse.md R207). -/
theorem operandError_invInstr (t : Bool) (n : BitVec 3) (s : State) : operandError (invInstr t n) s =
    if diagProduct n.toNat (maEntry s) = 0 then some .notInvertible
    else if Int.gcd (matDet n.toNat (maEntry s)) 26 = 1 then none else some .noModularInverse := by
  cases t <;> rfl

/-- INV accepts the block of order n: no diagonal element is 0, and the determinant is a unit mod 26. -/
def invAccepts (n : Nat) (a : IntMatrix) : Prop := (∀ i, i < n → a i i ≠ 0) ∧ Int.gcd (matDet n a) 26 = 1

theorem diagProduct_ne_zero {n : Nat} {a : IntMatrix} (h : ∀ i, i < n → a i i ≠ 0) : diagProduct n a ≠ 0 := by
  rw [Ne, diagProduct_eq_zero_iff]
  rintro ⟨k, inside, zero⟩
  exact h k inside zero

theorem operandError_of_zero_diagonal {n : BitVec 3} {s : State} (zero : ∃ k, k < n.toNat ∧ maEntry s k k = 0)
    (t : Bool) : operandError (invInstr t n) s = some .notInvertible := by
  rw [operandError_invInstr, if_pos (diagProduct_eq_zero_iff.mpr zero)]

theorem operandError_of_shared_factor {n : BitVec 3} {s : State} (nonzero : ∀ k, k < n.toNat → maEntry s k k ≠ 0)
    (shared : Int.gcd (matDet n.toNat (maEntry s)) 26 ≠ 1) (t : Bool) :
    operandError (invInstr t n) s = some .noModularInverse := by
  rw [operandError_invInstr, if_neg (diagProduct_ne_zero nonzero), if_neg shared]

theorem operandError_of_invAccepts {n : BitVec 3} {s : State} (accepts : invAccepts n.toNat (maEntry s)) (t : Bool) :
    operandError (invInstr t n) s = none := by
  obtain ⟨nonzero, coprime⟩ := accepts
  rw [operandError_invInstr, if_neg (diagProduct_ne_zero nonzero), if_pos coprime]

/-- Settles O56: the product of the diagonal is 0 just when one of its elements is, and it is checked first. -/
theorem invErrorsInOrder : Obligations.InvErrorsInOrder := by
  intro s n legal ready i inverse
  obtain ⟨t, rfl⟩ := exists_eq_invInstr inverse
  have form := shapeError_of_square (dims_invInstr t n) legal
  rw [← operandRegs_invInstr t n] at ready
  exact ⟨fun zero => exec_of_operandError form ready (operandError_of_zero_diagonal zero t),
    fun nonzero shared => exec_of_operandError form ready (operandError_of_shared_factor nonzero shared t)⟩

end Sys2Proof.Machine
end

section
/-! PROOFS. The results of DET, ADJ and INV fit their registers (44_matrix_inverse.md R205-R207; 20_memory.md R69;
10_state.md R39-R41). -/

namespace Sys2Proof.Machine

theorem toNat_le_four_of_dimOk {n m : BitVec 3} (legal : dimOk n m = true) : n.toNat ≤ 4 := by
  simp only [dimOk, Bool.and_eq_true, decide_eq_true_eq] at legal
  omega

theorem abs_maEntry_le (s : State) (i j : Nat) : |maEntry s i j| ≤ 128 := by
  rw [maEntry, abs_le]
  split
  · exact ⟨BitVec.le_toInt _, (BitVec.toInt_lt).le⟩
  · decide

/-- Each of the n! products of the expansion has n factors (44_matrix_inverse.md R200). -/
theorem abs_matDet_le {a : IntMatrix} {b : Int} (bound : ∀ i j, |a i j| ≤ b) (n : Nat) :
    |matDet n a| ≤ n.factorial * b ^ n := by
  rw [matDet_eq_det]
  simpa using Matrix.det_le (A := blockMatrix n a) (abv := AbsoluteValue.abs) fun i j => bound i j

theorem factorial_mul_pow_mono {n m : Nat} (h : n ≤ m) {b : Int} (hb : 1 ≤ b) :
    (n.factorial : Int) * b ^ n ≤ m.factorial * b ^ m := by
  gcongr

/-- Order 4 is the worst case: 24 products of four 8-bit elements. -/
theorem abs_matDet_maEntry_le {n : Nat} (h : n ≤ 4) (s : State) : |matDet n (maEntry s)| ≤ 24 * 128 ^ 4 :=
  (abs_matDet_le (abs_maEntry_le s) n).trans (factorial_mul_pow_mono h (by decide))

theorem abs_matAdjugate_le {a : IntMatrix} {b : Int} (bound : ∀ i j, |a i j| ≤ b) (n i j : Nat) :
    |matAdjugate n a i j| ≤ (n - 1).factorial * b ^ (n - 1) := by
  rw [matAdjugate, matCofactor, abs_mul, abs_neg_one_pow, one_mul]
  exact abs_matDet_le (fun _ _ => bound _ _) (n - 1)

/-- A cofactor of order 4 is a determinant of order 3: 6 products of three 8-bit elements. -/
theorem abs_matAdjugate_maEntry_le {n : Nat} (h : n ≤ 4) (s : State) (i j : Nat) :
    |matAdjugate n (maEntry s) i j| ≤ 6 * 128 ^ 3 :=
  (abs_matAdjugate_le (abs_maEntry_le s) n i j).trans (factorial_mul_pow_mono (m := 3) (by omega) (by decide))

@[simp] theorem detValue_completeWith (c : BitVec 4) (s : State) : detValue (completeWith c s) = detValue s := rfl

@[simp] theorem mrEntry_completeWith (c : BitVec 4) (s : State) : mrEntry (completeWith c s) = mrEntry s := rfl

/-- 64 bits hold the determinant, whatever its sign (20_memory.md R69). -/
theorem detValue_writeDet {d : Int} (bound : |d| ≤ 24 * 128 ^ 4) (s : State) : detValue (writeDet d s) = d := by
  obtain ⟨low, high⟩ := abs_le.mp bound
  rw [detValue, writeDet_detHi, writeDet_detLo]
  refine (congrArg BitVec.toInt (append_halves (BitVec.ofInt 64 d))).trans ?_
  exact BitVec.toInt_ofInt_eq_self (by decide) (by omega) (by omega)

/-- 32 bits hold an element of the adjugate, whatever its sign (20_memory.md R69). -/
theorem mrEntry_writeMr {n : Nat} {b : IntMatrix} (bound : ∀ i j, |b i j| ≤ 6 * 128 ^ 3) (s : State) {i j : Nat}
    (hi : i < 4) (hj : j < 4) : mrEntry (writeMr n b s) i j = if i < n ∧ j < n then b i j else 0 := by
  obtain ⟨low, high⟩ := abs_le.mp (bound i j)
  rw [mrEntry, dif_pos ⟨hi, hj⟩, writeMr_mr]
  simp only [Vector.getElem_ofFn]
  split
  · exact BitVec.toInt_ofInt_eq_self (by decide) (by omega) (by omega)
  · rfl

/-- Settles O52: at most 24 products of four elements of 8 bits lie far inside 64 bits. -/
theorem detStoresExactDeterminant : Obligations.DetStoresExactDeterminant := by
  intro s n legal ready
  refine ⟨_, exec_of_no_error (shapeError_of_square rfl legal) ready rfl, completedOk_resultState (.det n n) s, ?_⟩
  rw [detValue_completeWith, resultState]
  exact detValue_writeDet (abs_matDet_maEntry_le (toNat_le_four_of_dimOk legal) s) s

/-- ADJ and ADJ.T, by the field T (44_matrix_inverse.md R206). -/
def adjInstr (t : Bool) (n : BitVec 3) : Instr := if t then .adjT n n else .adj n n

theorem resultState_adjInstr (t : Bool) (n : BitVec 3) (s : State) :
    resultState (adjInstr t n) s = writeMr n.toNat (orient t (matAdjugate n.toNat (maEntry s))) s := by
  cases t <;> rfl

theorem exec_adjInstr {n : BitVec 3} {s : State} (legal : dimOk n n = true)
    (ready : operandsReady (maRegs n.toNat) s = true) (t : Bool) :
    exec (adjInstr t n) s = .next (completeWith 0#4 (resultState (adjInstr t n) s)) := by
  cases t <;> exact exec_of_no_error (shapeError_of_square rfl legal) ready rfl

theorem orient_bound {a : IntMatrix} {b : Int} (bound : ∀ i j, |a i j| ≤ b) (t : Bool) (i j : Nat) :
    |orient t a i j| ≤ b := by
  cases t
  · exact bound i j
  · exact bound j i

theorem exists_adjugate {n : BitVec 3} {s : State} (legal : dimOk n n = true)
    (ready : operandsReady (maRegs n.toNat) s = true) (t : Bool) :
    ∃ u, exec (adjInstr t n) s = .next u ∧ completedOk (adjInstr t n) s u ∧
      ∀ i j : Nat, i < 4 → j < 4 → mrEntry u i j =
        if i < n.toNat ∧ j < n.toNat then orient t (matAdjugate n.toNat (maEntry s)) i j else 0 := by
  refine ⟨_, exec_adjInstr legal ready t, completedOk_resultState _ s, fun i j hi hj => ?_⟩
  rw [mrEntry_completeWith, resultState_adjInstr]
  have fits := abs_matAdjugate_maEntry_le (toNat_le_four_of_dimOk legal) s
  exact mrEntry_writeMr (orient_bound fits t) s hi hj

/-- Settles O53: both orientations of one command, whose elements fit 32 bits. -/
theorem adjStoresExactAdjugate : Obligations.AdjStoresExactAdjugate := fun _ _ legal ready =>
  ⟨exists_adjugate legal ready false, exists_adjugate legal ready true⟩

end Sys2Proof.Machine
end

section
/-! PROOFS. INV: its results, and that MR is the modular inverse (44_matrix_inverse.md R207, R208). -/

namespace Sys2Proof.Machine

/-- A command that completes with the results of INV in DET, DINV and MR. -/
structure CompletesWithInverse (i : Instr) (t : Bool) (n : Nat) (s u : State) : Prop where
  run : exec i s = .next u
  completed : completedOk i s u
  det : detValue u = matDet n (maEntry s)
  dinv : modInv26 (matDet n (maEntry s)) = some u.dinv.toNat
  mr : ∀ i j : Nat, i < 4 → j < 4 → mrEntry u i j =
    if i < n ∧ j < n then orient t (matInverse26 n (maEntry s) u.dinv.toNat) i j else 0

theorem CompletesWithInverse.isDinv {i : Instr} {t : Bool} {n : Nat} {s u : State}
    (h : CompletesWithInverse i t n s u) : isDinv (matDet n (maEntry s)) u.dinv.toNat :=
  isDinv_of_modInv26 h.dinv

@[simp] theorem detValue_writeInverse (t : Bool) (k : Nat) (d : Int) (di : Nat) (s : State) :
    detValue (writeInverse t k d di s) = detValue (writeDet d s) := rfl

@[simp] theorem writeInverse_dinv (t : Bool) (k : Nat) (d : Int) (di : Nat) (s : State) :
    (writeInverse t k d di s).dinv = BitVec.ofNat 5 di := rfl

theorem abs_matInverse26_le (n : Nat) (a : IntMatrix) (di i j : Nat) : |matInverse26 n a di i j| ≤ 6 * 128 ^ 3 := by
  have low := Int.emod_nonneg (di * matAdjugate n a i j) (b := 26) (by decide)
  have high := Int.emod_lt_of_pos (di * matAdjugate n a i j) (b := 26) (by decide)
  rw [matInverse26, abs_of_nonneg low]
  omega

theorem mrEntry_writeInverse (t : Bool) (k : Nat) (d : Int) (di : Nat) (s : State) {i j : Nat} (hi : i < 4)
    (hj : j < 4) : mrEntry (writeInverse t k d di s) i j =
      if i < k ∧ j < k then orient t (matInverse26 k (maEntry s) di) i j else 0 :=
  mrEntry_writeMr (orient_bound (abs_matInverse26_le k (maEntry s) di) t) _ hi hj

theorem resultState_invInstr (t : Bool) (n : BitVec 3) (s : State) : resultState (invInstr t n) s =
    writeInverse t n.toNat (matDet n.toNat (maEntry s)) ((modInv26 (matDet n.toNat (maEntry s))).getD 0) s := by
  cases t <;> rfl

theorem exec_invInstr {n : BitVec 3} {s : State} (legal : dimOk n n = true)
    (ready : operandsReady (maRegs n.toNat) s = true) (accepts : invAccepts n.toNat (maEntry s)) (t : Bool) :
    exec (invInstr t n) s = .next (completeWith 0#4 (resultState (invInstr t n) s)) :=
  exec_of_no_error (shapeError_of_square (dims_invInstr t n) legal) (operandRegs_invInstr t n ▸ ready)
    (operandError_of_invAccepts accepts t)

theorem exists_completesWithInverse {n : BitVec 3} {s : State} (legal : dimOk n n = true)
    (ready : operandsReady (maRegs n.toNat) s = true) (accepts : invAccepts n.toNat (maEntry s)) (t : Bool) :
    ∃ u, CompletesWithInverse (invInstr t n) t n.toNat s u := by
  obtain ⟨nonzero, coprime⟩ := accepts
  obtain ⟨di, found⟩ := Option.isSome_iff_exists.mp (modInv26_isSome coprime)
  obtain ⟨-, small, -⟩ := isDinv_of_modInv26 found
  have result : resultState (invInstr t n) s = writeInverse t n.toNat (matDet n.toNat (maEntry s)) di s := by
    rw [resultState_invInstr, found, Option.getD_some]
  have stored : (BitVec.ofNat 5 di).toNat = di := by
    rw [BitVec.toNat_ofNat, Nat.mod_eq_of_lt (by omega)]
  have run := exec_invInstr legal ready ⟨nonzero, coprime⟩ t
  have completed := completedOk_resultState (invInstr t n) s
  rw [result] at run completed
  refine ⟨_, run, completed, ?det, ?dinv, fun i j hi hj => ?mr⟩
  case det => exact detValue_writeDet (abs_matDet_maEntry_le (toNat_le_four_of_dimOk legal) s) s
  case dinv =>
    rw [completeWith_dinv, writeInverse_dinv, stored, found]
  case mr =>
    rw [completeWith_dinv, writeInverse_dinv, stored, mrEntry_completeWith]
    exact mrEntry_writeInverse t _ _ di s hi hj

/-- Settles O54: both orientations of one command on an accepted block. -/
theorem invWritesInverse : Obligations.InvWritesInverse := by
  intro s n legal ready nonzero coprime
  obtain ⟨t, inv⟩ := exists_completesWithInverse legal ready ⟨nonzero, coprime⟩ false
  obtain ⟨u, invT⟩ := exists_completesWithInverse legal ready ⟨nonzero, coprime⟩ true
  obtain ⟨positive, small, inverse⟩ := inv.isDinv
  obtain ⟨positive', small', inverse'⟩ := invT.isDinv
  exact ⟨⟨t, inv.run, inv.completed, inv.det, positive, small, inverse, inv.mr⟩,
    ⟨u, invT.run, invT.completed, invT.det, positive', small', inverse', invT.mr⟩⟩

theorem sumBelow_modEq {n : Nat} {f g : Nat → Int} (h : ∀ k < n, f k ≡ g k [ZMOD 26]) :
    sumBelow n f ≡ sumBelow n g [ZMOD 26] := by
  rw [sumBelow_eq_sum, sumBelow_eq_sum]
  exact Int.ModEq.sum fun k _ => h k k.isLt

theorem sumBelow_mul_left (n : Nat) (c : Int) (f : Nat → Int) : (sumBelow n fun k => c * f k) = c * sumBelow n f :=
  List.sum_map_mul_left _ f c

theorem matInverse26_modEq (n : Nat) (a : IntMatrix) (di i j : Nat) :
    matInverse26 n a di i j ≡ di * matAdjugate n a i j [ZMOD 26] :=
  Int.mod_modEq _ 26

/-- DINV scales det(a) · I to I (44_matrix_inverse.md R208). -/
theorem mul_det_emod {d : Int} {di : Nat} (h : isDinv d di) (p : Prop) [Decidable p] :
    ((di : Int) * if p then d else 0) % 26 = if p then 1 else 0 := by
  obtain ⟨-, -, inverse⟩ := h
  split
  · rw [mul_comm, inverse]
  · rw [mul_zero, Int.zero_emod]

section ModularInverse

variable {n i j di : Nat} {a : IntMatrix} (inverse : isDinv (matDet n a) di) (hi : i < n) (hj : j < n)

include inverse hi hj

theorem mul_matInverse26_emod :
    (sumBelow n fun k => a i k * matInverse26 n a di k j) % 26 = if i = j then 1 else 0 := by
  calc (sumBelow n fun k => a i k * matInverse26 n a di k j) % 26
      = (sumBelow n fun k => (di : Int) * (a i k * matAdjugate n a k j)) % 26 :=
        sumBelow_modEq fun k _ =>
          ((matInverse26_modEq n a di k j).mul_left (a i k)).trans (by rw [mul_left_comm])
    _ = ((di : Int) * if i = j then matDet n a else 0) % 26 := by
        rw [sumBelow_mul_left, sumBelow_mul_matAdjugate a ⟨i, hi⟩ ⟨j, hj⟩]
    _ = if i = j then 1 else 0 := mul_det_emod inverse (i = j)

theorem matInverse26_mul_emod :
    (sumBelow n fun k => matInverse26 n a di i k * a k j) % 26 = if i = j then 1 else 0 := by
  calc (sumBelow n fun k => matInverse26 n a di i k * a k j) % 26
      = (sumBelow n fun k => (di : Int) * (matAdjugate n a i k * a k j)) % 26 :=
        sumBelow_modEq fun k _ =>
          ((matInverse26_modEq n a di i k).mul_right (a k j)).trans (by rw [mul_assoc])
    _ = ((di : Int) * if i = j then matDet n a else 0) % 26 := by
        rw [sumBelow_mul_left, sumBelow_matAdjugate_mul a ⟨i, hi⟩ ⟨j, hj⟩]
    _ = if i = j then 1 else 0 := mul_det_emod inverse (i = j)

end ModularInverse

theorem CompletesWithInverse.mr_inside {i : Instr} {t : Bool} {n : Nat} {s u : State}
    (h : CompletesWithInverse i t n s u) (le : n ≤ 4) {i j : Nat} (hi : i < n) (hj : j < n) :
    mrEntry u i j = orient t (matInverse26 n (maEntry s) u.dinv.toNat) i j := by
  rw [h.mr i j (hi.trans_le le) (hj.trans_le le), if_pos ⟨hi, hj⟩]

theorem err_of_completedOk {i : Instr} {s t : State} (completed : completedOk i s t) : t.status.err = false := by
  obtain ⟨status, -⟩ := completed
  rw [status]
  rfl

/-- Settles O55: MR holds DINV times the adjugate mod 26, and DINV inverts the determinant. -/
theorem invIsTrueModularInverse : Obligations.InvIsTrueModularInverse := by
  intro s n legal ready nonzero coprime
  obtain ⟨t, inv⟩ := exists_completesWithInverse legal ready ⟨nonzero, coprime⟩ false
  obtain ⟨u, invT⟩ := exists_completesWithInverse legal ready ⟨nonzero, coprime⟩ true
  have le := toNat_le_four_of_dimOk legal
  refine ⟨t, u, inv.run, err_of_completedOk inv.completed, invT.run, err_of_completedOk invT.completed,
    fun i j hi hj => ⟨?left, ?right, ?transpose⟩⟩
  case left =>
    rw [sumBelow_congr fun k hk => by rw [inv.mr_inside le hk hj]]
    exact mul_matInverse26_emod inv.isDinv hi hj
  case right =>
    rw [sumBelow_congr fun k hk => by rw [inv.mr_inside le hi hk]]
    exact matInverse26_mul_emod inv.isDinv hi hj
  case transpose =>
    have same : u.dinv.toNat = t.dinv.toNat := Option.some.inj (invT.dinv.symm.trans inv.dinv)
    rw [invT.mr_inside le hi hj, inv.mr_inside le hj hi, same]
    rfl

end Sys2Proof.Machine
end

section
/-! PROOFS. The Hill products: how `matVec26` and `vecMat26` compute mod 26 (45_hill.md R232-R234, R236). -/

namespace Sys2Proof.Machine

/-- VMM with X is MVM with the transpose of X (45_hill.md R233). -/
theorem vecMat26_eq_matVec26 (n : Nat) (x : IntMatrix) (v : Nat → Int) :
    vecMat26 n x v = matVec26 n (matTranspose x) v := by
  funext j
  exact congrArg (· % 26) (sumBelow_congr fun i _ => mul_comm (v i) (x i j))

theorem sumBelow_add (n : Nat) (f g : Nat → Int) :
    (sumBelow n fun k => f k + g k) = sumBelow n f + sumBelow n g :=
  List.sum_map_add

theorem matVec26_add (n : Nat) (x : IntMatrix) (v w : Nat → Int) (i : Nat) :
    matVec26 n x (fun k => v k + w k) i = (matVec26 n x v i + matVec26 n x w i) % 26 := by
  simp only [matVec26, mul_add]
  rw [sumBelow_add, Int.add_emod]

theorem matVec26_eq_of_emod_eq {n : Nat} {x y : IntMatrix} {v w : Nat → Int} {i : Nat}
    (agree : ∀ k, k < n → x i k % 26 = y i k % 26 ∧ v k % 26 = w k % 26) : matVec26 n x v i = matVec26 n y w i :=
  sumBelow_modEq fun k hk =>
    have ⟨factor, element⟩ := agree k hk
    Int.ModEq.mul factor element

/-- Settles O59: a sum splits over its terms, and a product depends on the residues of its factors; the row product is
the column product of the transpose. -/
theorem hillProductIsLinear : Obligations.HillProductIsLinear := by
  intro n x y v w i
  simp only [vecMat26_eq_matVec26]
  exact ⟨matVec26_add n x v w i, matVec26_add n _ v w i, matVec26_eq_of_emod_eq,
    matVec26_eq_of_emod_eq (x := matTranspose x) (y := matTranspose y)⟩

/-- (b · a) · v = b · (a · v). -/
theorem sumBelow_mul_assoc (n : Nat) (b a : IntMatrix) (v : Nat → Int) (i : Nat) :
    (sumBelow n fun k => b i k * sumBelow n fun j => a k j * v j) =
      sumBelow n fun j => (sumBelow n fun k => b i k * a k j) * v j := by
  simp only [sumBelow_eq_sum, Finset.mul_sum, Finset.sum_mul, mul_assoc]
  exact Finset.sum_comm

theorem sumBelow_ite_mul {n i : Nat} (hi : i < n) (v : Nat → Int) :
    (sumBelow n fun j => (if i = j then 1 else 0) * v j) = v i := by
  rw [sumBelow_eq_sum]
  simpa [Fin.ext_iff] using Fintype.sum_ite_eq (⟨i, hi⟩ : Fin n) fun j => v j

/-- `b` is a left inverse mod 26 of the n x n block of `a` (44_matrix_inverse.md R208). -/
def leftInverse26 (n : Nat) (b a : IntMatrix) : Prop :=
  ∀ i < n, ∀ j < n, (sumBelow n fun k => b i k * a k j) ≡ if i = j then 1 else 0 [ZMOD 26]

theorem leftInverse26_matInverse26 {n di : Nat} {a : IntMatrix} (inverse : isDinv (matDet n a) di) :
    leftInverse26 n (matInverse26 n a di) a :=
  fun i hi j hj => by
    rw [← matInverse26_mul_emod inverse hi hj]
    exact (Int.mod_modEq _ 26).symm

/-- A left inverse undoes the product, up to residues (45_hill.md R236). -/
theorem matVec26_matVec26_of_leftInverse26 {n : Nat} {a b : IntMatrix} (inverse : leftInverse26 n b a) (v : Nat → Int)
    {i : Nat} (hi : i < n) : matVec26 n b (matVec26 n a v) i = v i % 26 := by
  calc matVec26 n b (matVec26 n a v) i
      = (sumBelow n fun k => b i k * sumBelow n fun j => a k j * v j) % 26 :=
        sumBelow_modEq fun k _ => (Int.mod_modEq _ 26).mul_left (b i k)
    _ = (sumBelow n fun j => (sumBelow n fun k => b i k * a k j) * v j) % 26 := by rw [sumBelow_mul_assoc]
    _ = (sumBelow n fun j => (if i = j then 1 else 0) * v j) % 26 :=
        sumBelow_modEq fun j hj => (inverse i hi j hj).mul_right (v j)
    _ = v i % 26 := by rw [sumBelow_ite_mul hi]

end Sys2Proof.Machine
end

section
/-! PROOFS. MVM and VMM complete with their product in VOUT (45_hill.md R230, R232, R233, R235). -/

namespace Sys2Proof.Machine

/-- Five bits hold a residue mod 26. -/
theorem voutEntry_writeVout {n : Nat} {v : Nat → Int} (bounds : ∀ j, 0 ≤ v j ∧ v j < 26) (s : State) {j : Nat}
    (hj : j < 4) : voutEntry (writeVout n v s) j = if j < n then v j else 0 := by
  obtain ⟨low, high⟩ := bounds j
  simp only [voutEntry, dif_pos hj, writeVout_vout, Vector.getElem_ofFn]
  split
  · rw [BitVec.toNat_ofInt]
    omega
  · rfl

/-- A command that completes with the n elements of `v` in VOUT, and 0 after them. -/
def completesWithVout (i : Instr) (s t : State) (n : Nat) (v : Nat → Int) : Prop :=
  exec i s = .next t ∧ completedOk i s t ∧ ∀ j : Nat, j < 4 → voutEntry t j = if j < n then v j else 0

theorem exists_completesWithVout {i : Instr} {s : State} {n : Nat} {v : Nat → Int} (form : shapeError i = none)
    (values : operandError i s = none) (result : resultState i s = writeVout n v s)
    (bounds : ∀ j, 0 ≤ v j ∧ v j < 26) (ready : operandsReady (operandRegs i) s = true) :
    ∃ t, completesWithVout i s t n v := by
  refine ⟨_, exec_of_no_error form ready values, completedOk_resultState i s, fun j hj => ?_⟩
  rw [result]
  exact voutEntry_writeVout bounds s hj

section HillCommands

variable {n : BitVec 3} {s : State} (legal : dimOk n n = true)

include legal

theorem exec_mvm (ready : operandsReady (maRegs n.toNat ++ vinRegs n.toNat) s = true) :
    ∃ t, completesWithVout (.mvm n n) s t n.toNat (matVec26 n.toNat (maEntry s) (vinEntry s)) :=
  exists_completesWithVout (shapeError_of_square rfl legal) rfl rfl (matVec26_bounds _ _ _) ready

theorem exec_mvmS (ready : operandsReady (mrRegs n.toNat ++ vinRegs n.toNat) s = true) :
    ∃ t, completesWithVout (.mvmS n n) s t n.toNat (matVec26 n.toNat (mrEntry s) (vinEntry s)) :=
  exists_completesWithVout (shapeError_of_square rfl legal) rfl rfl (matVec26_bounds _ _ _) ready

theorem exec_vmm (ready : operandsReady (maRegs n.toNat ++ vinRegs n.toNat) s = true) :
    ∃ t, completesWithVout (.vmm n n) s t n.toNat (vecMat26 n.toNat (maEntry s) (vinEntry s)) :=
  exists_completesWithVout (shapeError_of_square rfl legal) rfl rfl (vecMat26_bounds _ _ _) ready

theorem exec_vmmS (ready : operandsReady (mrRegs n.toNat ++ vinRegs n.toNat) s = true) :
    ∃ t, completesWithVout (.vmmS n n) s t n.toNat (vecMat26 n.toNat (mrEntry s) (vinEntry s)) :=
  exists_completesWithVout (shapeError_of_square rfl legal) rfl rfl (vecMat26_bounds _ _ _) ready

end HillCommands

/-- Settles O57: both forms write the column product of their matrix, whose residues fit VOUT. -/
theorem mvmMultipliesColumnVector : Obligations.MvmMultipliesColumnVector := fun _ _ legal =>
  ⟨exec_mvm legal, exec_mvmS legal⟩

/-- Settles O58: both forms write the row product of their matrix, whose residues fit VOUT. -/
theorem vmmMultipliesRowVector : Obligations.VmmMultipliesRowVector := fun _ _ legal =>
  ⟨exec_vmm legal, exec_vmmS legal⟩

end Sys2Proof.Machine
end

section
/-! PROOFS. What a host copy of any registers leaves, and the copy of VOUT to VIN (20_memory.md R76; 10_state.md R37,
R38). -/

namespace Sys2Proof.Machine

theorem idle_writeOperand (r : Reg) (w : Word) {s : State} (idle : s.status.busy = false) :
    (writeOperand r w s).status.busy = false := by
  rw [writeOperand_of_idle r w idle]
  split
  · rw [markWritten_status, storeField_status, idle]
  · exact idle

theorem readReg_writeOperand_of_ne {q r : Reg} (apart : q ≠ r) (w : Word) {s : State} (idle : s.status.busy = false) :
    readReg q (writeOperand r w s) = readReg q s := by
  rw [writeOperand_of_idle r w idle]
  split
  · rw [readReg_markWritten, readReg_storeField apart]
  · rfl

theorem readReg_writeOperand_same {r : Reg} (writable : hostWritable r = true) (w : Word) {s : State}
    (idle : s.status.busy = false) : readReg r (writeOperand r w s) = widthRule r w := by
  rw [writeOperand_of_idle r w idle, if_pos writable, readReg_markWritten, readReg_storeField_same writable]

theorem hostCopy_cons (p : Reg × Reg) (moves : List (Reg × Reg)) (s : State) :
    hostCopy (p :: moves) s = hostCopy moves (writeOperand p.2 (readReg p.1 s) s) := rfl

/-- A copy leaves every register that is no target of it. -/
theorem readReg_hostCopy_of_notMem {moves : List (Reg × Reg)} {q : Reg} (outside : q ∉ moves.map Prod.snd) {s : State}
    (idle : s.status.busy = false) : readReg q (hostCopy moves s) = readReg q s := by
  induction moves generalizing s with
  | nil => rfl
  | cons p moves ih =>
    rw [List.map_cons, List.mem_cons, not_or] at outside
    obtain ⟨apart, others⟩ := outside
    rw [hostCopy_cons, ih others (idle_writeOperand _ _ idle), readReg_writeOperand_of_ne apart _ idle]

/-- A copy whose targets are distinct and none of its sources gives each target the value its source had. -/
theorem readReg_hostCopy_of_mem {moves : List (Reg × Reg)} (writable : ∀ p ∈ moves, hostWritable p.2 = true)
    (distinct : (moves.map Prod.snd).Nodup) (sources : ∀ p ∈ moves, p.1 ∉ moves.map Prod.snd) {s : State}
    (idle : s.status.busy = false) {p : Reg × Reg} (moved : p ∈ moves) :
    readReg p.2 (hostCopy moves s) = widthRule p.2 (readReg p.1 s) := by
  induction moves generalizing s with
  | nil => cases moved
  | cons m moves ih =>
    obtain ⟨writableM, writableOthers⟩ := List.forall_mem_cons.mp writable
    obtain ⟨once, distinct⟩ := List.nodup_cons.mp distinct
    have stored := idle_writeOperand m.2 (readReg m.1 s) idle
    rw [hostCopy_cons]
    obtain rfl | later := List.mem_cons.mp moved
    case inl => rw [readReg_hostCopy_of_notMem once stored, readReg_writeOperand_same writableM _ idle]
    case inr =>
      have apart : ∀ q ∈ moves, q.1 ≠ m.2 ∧ q.1 ∉ moves.map Prod.snd := fun q hq => by
        have source := sources q (List.mem_cons_of_mem m hq)
        rwa [List.map_cons, List.mem_cons, not_or] at source
      rw [ih writableOthers distinct (fun q hq => (apart q hq).2) stored later,
        readReg_writeOperand_of_ne (apart p later).1 _ idle]

/-- The host's copy of VOUT to VIN (45_hill.md R236). -/
def voutToVin : List (Reg × Reg) := (List.finRange 4).map fun j => (.vout j, .vin j)

theorem voutEntry_eq_toNat (s : State) (j : Fin 4) : voutEntry s j = (readReg (.vout j) s).toNat := by
  rw [toNat_readReg_vout, voutEntry, dif_pos j.isLt]

/-- An element of VOUT is at most 31, so as an element of VIN it is not negative (10_state.md R37, R38). -/
theorem toInt_widthRule_vin_setWidth (j : Fin 4) (x : BitVec 5) :
    (widthRule (.vin j) (x.setWidth 32)).toInt = x.toNat := by
  revert j x
  decide

theorem vinEntry_hostCopy_voutToVin {s : State} (idle : s.status.busy = false) {j : Nat} (hj : j < 4) :
    vinEntry (hostCopy voutToVin s) j = voutEntry s j := by
  have moved : (Reg.vout ⟨j, hj⟩, Reg.vin ⟨j, hj⟩) ∈ voutToVin := List.mem_map_of_mem (List.mem_finRange _)
  have copied := readReg_hostCopy_of_mem (moves := voutToVin) (by decide) (by decide) (by decide) idle moved
  rw [vinEntry_eq_toInt _ ⟨j, hj⟩, copied, readReg, toInt_widthRule_vin_setWidth, voutEntry, dif_pos hj]

end Sys2Proof.Machine
end

section
/-! PROOFS. The Hill round trip on the machine: MVM, then INV and MVM.S, or INV.T and VMM.S (45_hill.md R236). -/

namespace Sys2Proof.Machine

theorem exists_eq_ma_of_mem_maRegs {n : Nat} {r : Reg} (h : r ∈ maRegs n) : ∃ i j, r = .ma i j := by
  simp only [maRegs, List.mem_flatMap, List.mem_filterMap, Option.ite_none_right_eq_some, Option.some.injEq] at h
  obtain ⟨i, -, j, -, -, named⟩ := h
  exact ⟨i, j, named.symm⟩

theorem exists_eq_mr_of_mem_mrRegs {n : Nat} {r : Reg} (h : r ∈ mrRegs n) : ∃ i j, r = .mr i j := by
  simp only [mrRegs, List.mem_flatMap, List.mem_filterMap, Option.ite_none_right_eq_some, Option.some.injEq] at h
  obtain ⟨i, -, j, -, -, named⟩ := h
  exact ⟨i, j, named.symm⟩

/-- MVM leaves the matrix that it reads. -/
theorem sameBlock_maEntry_of_mvm {n : BitVec 3} {s t : State} (completed : completedOk (.mvm n n) s t) :
    sameBlock n.toNat (maEntry s) (maEntry t) := by
  obtain ⟨-, -, frame, -⟩ := completed
  refine maEntry_congr fun r hr => ?_
  obtain ⟨i, j, rfl⟩ := exists_eq_ma_of_mem_maRegs hr
  exact (frame (.ma i j) (by simp [resultRegs]) nofun).symm

theorem sameBlock_mrEntry_hostCopy_voutToVin (n : Nat) {s : State} (idle : s.status.busy = false) :
    sameBlock n (mrEntry (hostCopy voutToVin s)) (mrEntry s) := by
  refine mrEntry_congr fun r hr => ?_
  obtain ⟨i, j, rfl⟩ := exists_eq_mr_of_mem_mrRegs hr
  exact readReg_hostCopy_of_notMem (by simp [voutToVin]) idle

theorem invAccepts_congr {n : Nat} {a b : IntMatrix} (same : sameBlock n a b) (accepts : invAccepts n a) :
    invAccepts n b := by
  obtain ⟨nonzero, coprime⟩ := accepts
  exact ⟨fun i hi => same i hi i hi ▸ nonzero i hi, matDet_congr same ▸ coprime⟩

/-- INV leaves VOUT. -/
theorem voutEntry_of_invInstr {t : Bool} {n : BitVec 3} {s u : State} (completed : completedOk (invInstr t n) s u)
    {j : Nat} (hj : j < 4) : voutEntry u j = voutEntry s j := by
  obtain ⟨-, -, frame, -⟩ := completed
  have kept := frame (.vout ⟨j, hj⟩) (by cases t <;> simp [invInstr, resultRegs, matrixRegs]) nofun
  rw [voutEntry_eq_toNat u ⟨j, hj⟩, kept, voutEntry_eq_toNat s ⟨j, hj⟩]

/-- MR may be read once INV has written it (70_reset_and_hazards.md R324). -/
theorem operandsReady_mrRegs_of_invInstr {t : Bool} {n : BitVec 3} {s u : State}
    (completed : completedOk (invInstr t n) s u) : operandsReady (mrRegs n.toNat) u = true := by
  obtain ⟨-, -, -, written⟩ := completed
  refine operandsReady_iff.mpr (.inr fun r hr => (written r).mpr (.inl ?_))
  obtain ⟨i, j, rfl⟩ := exists_eq_mr_of_mem_mrRegs hr
  cases t <;> exact List.mem_append_right _ (mem_matrixRegs_mr i j)

/-- The command that decrypts with the result of INV (T = 0) or INV.T (T = 1) (45_hill.md R236). -/
def decryptInstr (t : Bool) (n : BitVec 3) : Instr := if t then .vmmS n n else .mvmS n n

/-- Both decrypt by a column product: VMM.S transposes back what INV.T transposed. -/
theorem exec_decryptInstr {n : BitVec 3} {s : State} (legal : dimOk n n = true)
    (ready : operandsReady (mrRegs n.toNat ++ vinRegs n.toNat) s = true) (t : Bool) :
    ∃ u, completesWithVout (decryptInstr t n) s u n.toNat
      (matVec26 n.toNat (orient t (mrEntry s)) (vinEntry s)) := by
  cases t
  case false => exact exec_mvmS legal ready
  case true => exact vecMat26_eq_matVec26 n.toNat (mrEntry s) (vinEntry s) ▸ exec_vmmS legal ready

theorem sameBlock.orient {n : Nat} {a b : IntMatrix} {t : Bool} (h : sameBlock n a (orient t b)) :
    sameBlock n (orient t a) b := by
  cases t
  case false => exact h
  case true => exact fun i hi j hj => h j hj i hi

/-- After INV or INV.T and the copy, the matrix of the decryption is the inverse of the key. -/
theorem CompletesWithInverse.decryptionMatrix {i : Instr} {t : Bool} {n : Nat} {s u : State}
    (h : CompletesWithInverse i t n s u) (le : n ≤ 4) :
    sameBlock n (orient t (mrEntry (hostCopy voutToVin u))) (matInverse26 n (maEntry s) u.dinv.toNat) := by
  refine sameBlock.orient fun i hi j hj => ?_
  rw [sameBlock_mrEntry_hostCopy_voutToVin n (idle_of_completedOk h.completed) i hi j hj, h.mr_inside le hi hj]

/-- Settles O60: the copy gives VIN the product K · v, MR holds the inverse of the key K in the orientation that the
decrypting command takes, and the inverse undoes K mod 26. -/
theorem hillRoundTrip : Obligations.HillRoundTrip := by
  intro s n legal ready nonzero coprime range p route
  obtain ⟨t, rfl⟩ : ∃ t, p = (invInstr t n, decryptInstr t n) := by
    obtain rfl | rfl := List.mem_pair.mp route
    · exact ⟨false, rfl⟩
    · exact ⟨true, rfl⟩
  have le := toNat_le_four_of_dimOk legal
  obtain ⟨key, vector⟩ := operandsReady_append.mp ready
  obtain ⟨t₁, encrypt, completed, cipher⟩ := exec_mvm legal ready
  have sameKey := sameBlock_maEntry_of_mvm completed
  obtain ⟨t₂, inv⟩ := exists_completesWithInverse legal (operandsReady_of_completedOk completed key)
    (invAccepts_congr sameKey ⟨nonzero, coprime⟩) t
  have idle := idle_of_completedOk inv.completed
  have copied : KeepsSubkeys t₂ (hostCopy voutToVin t₂) := .hostCopy (by decide) idle
  have inverse := operandsReady_mrRegs_of_invInstr inv.completed
  have vector₂ := operandsReady_of_completedOk inv.completed (operandsReady_of_completedOk completed vector)
  obtain ⟨t₃, decrypt, -, plain⟩ :=
    exec_decryptInstr legal (operandsReady_append.mpr ⟨copied.ready inverse, copied.ready vector₂⟩) t
  have product : ∀ j < n.toNat,
      vinEntry (hostCopy voutToVin t₂) j = matVec26 n.toNat (maEntry t₁) (vinEntry s) j := fun j hj => by
    have small := hj.trans_le le
    rw [vinEntry_hostCopy_voutToVin idle small, voutEntry_of_invInstr inv.completed small, cipher j small, if_pos hj]
    exact matVec26_congr sameKey (fun _ _ => rfl) j hj
  refine ⟨t₁, t₂, t₃, encrypt, inv.run, decrypt, fun j hj => ?_⟩
  obtain ⟨low, high⟩ := range j hj
  calc voutEntry t₃ j
      = matVec26 n.toNat (orient t (mrEntry (hostCopy voutToVin t₂))) (vinEntry (hostCopy voutToVin t₂)) j := by
        rw [plain j (hj.trans_le le), if_pos hj]
    _ = matVec26 n.toNat (matInverse26 n.toNat (maEntry t₁) t₂.dinv.toNat)
          (matVec26 n.toNat (maEntry t₁) (vinEntry s)) j := matVec26_congr (inv.decryptionMatrix le) product j hj
    _ = vinEntry s j % 26 :=
        matVec26_matVec26_of_leftInverse26 (leftInverse26_matInverse26 inv.isDinv) (vinEntry s) hj
    _ = vinEntry s j := Int.emod_eq_of_lt low (Int.lt_add_one_of_le high)

end Sys2Proof.Machine
end

section
/-! PROOFS. NOP reads no operand and writes no result, so only its completion shows (46_control.md R250). -/

namespace Sys2Proof.Machine

/-- Settles O39: NOP can raise no error, its result state is `s`, and the completion with code 0 sets STATUS. -/
theorem nopCompletes : Obligations.NopCompletes := by
  intro s
  have noOperands : operandsReady (operandRegs .nop) s = true := operandsReady_iff.mpr (.inr nofun)
  calc exec .nop s
      = .next (completeWith 0#4 (resultState .nop s)) := exec_of_no_error rfl noOperands rfl
    _ = .next { s with status := statusComplete 0#4 s.status } := rfl
    _ = _ := rfl

end Sys2Proof.Machine
end

section
/-! PROOFS. The engine's turn: the completion of the latched word, and that a command with readable operands
completes (60_exceptions.md R262, R263; 20_memory.md R75; 70_reset_and_hazards.md R324, R330). -/

namespace Sys2Proof.Machine

theorem completion_of_command {s : State} {i : Instr} (command : decode s.cmd = .ok i) : completion s = exec i s := by
  simp only [completion, fetch, command]

theorem completion_of_illegal {s : State} {e : Illegal} (illegal : decode s.cmd = .error e) :
    completion s = .next (failedState 1#4 s) := by
  simp only [completion, fetch, illegal, raiseError, completeWith_eq_failedState, errorCode]

theorem handleEvent_engine_of_busy {s : State} (released : s.rstN = true) (busy : s.status.busy = true) :
    handleEvent .engine s = completion s :=
  (if_pos released).trans (if_pos busy)

theorem step_engine_of_nil {s : State} (run : running s) (busy : s.status.busy = true) (none : s.events = []) :
    step s = completion s :=
  (step_of_nil run.1 none).trans (handleEvent_engine_of_busy run.2 busy)

theorem step_engine_of_cons {s : State} {rest : List Event} (run : running s) (busy : s.status.busy = true)
    (next : s.events = .engine :: rest) : step s = completion { s with events := rest } :=
  (step_of_cons run.1 next).trans (handleEvent_engine_of_busy (s := { s with events := rest }) run.2 busy)

theorem step_of_engineNext {s : State} (run : running s) (busy : s.status.busy = true) (turn : engineNext s) :
    ∃ events, step s = completion { s with events } := by
  rcases turn with none | ⟨rest, next⟩
  · exact ⟨s.events, step_engine_of_nil run busy none⟩
  · exact ⟨rest, step_engine_of_cons run busy next⟩

theorem decode_of_decodeTableWord {nbits w : Nat} {i : Instr} (row : decodeTableWord nbits w = some i) :
    decode (tableWord nbits w) = .ok i := by
  cases word : decode (tableWord nbits w) with
  | ok j => simpa [decodeTableWord, word] using row
  | error e => simp [decodeTableWord, word] at row

/-- Settles O6: the engine's turn is the completion step, which runs the decoded word, and `withFetchWord` is a busy
state whose next event is that turn. -/
theorem stepRunsDecodedCommand : Obligations.StepRunsDecodedCommand := by
  refine ⟨fun s i run busy command => ⟨fun none => ?pending, fun rest next => ?turn⟩, fun s nbits w i row => ?placed⟩
  case pending => rw [step_engine_of_nil run busy none, completion_of_command command]
  case turn => rw [step_engine_of_cons run busy next, completion_of_command (s := { s with events := rest }) command]
  case placed =>
    have turn := step_engine_of_cons (s := s.withFetchWord nbits w) ⟨statusOk_accept s.status, rfl⟩ rfl rfl
    exact turn.trans (completion_of_command (decode_of_decodeTableWord row))

/-- Settles O7: the completion of a refused word is the failure with code 1. -/
theorem illegalWordCompletes : Obligations.IllegalWordCompletes := by
  refine fun s e run busy illegal => ⟨fun none => ?pending, fun rest next => ?turn⟩
  case pending => rw [step_engine_of_nil run busy none, completion_of_illegal illegal]
  case turn => rw [step_engine_of_cons run busy next, completion_of_illegal (s := { s with events := rest }) illegal]

theorem goesOn_exec_of_ready {i : Instr} {s : State} (ready : operandsReady (operandRegs i) s = true) :
    goesOn (exec i s) := by
  rw [exec_eq, withShape, withOperands_ready ready]
  split <;> exact ⟨_, rfl⟩

theorem goesOn_completion {s : State}
    (ready : ∀ i, decode s.cmd = .ok i → operandsReady (operandRegs i) s = true) : goesOn (completion s) := by
  cases word : decode s.cmd with
  | ok i => exact completion_of_command word ▸ goesOn_exec_of_ready (ready i word)
  | error e => exact ⟨_, completion_of_illegal word⟩

/-- What any completion sets and keeps, of an illegal word as of a command (60_exceptions.md R262). -/
theorem completion_frame {s t : State} (h : completion s = .next t) :
    t.status = completedStatus t.status.errcode s ∧ sameEnvironment s t ∧ t.ie = s.ie ∧ t.cmd = s.cmd := by
  rcases completion_next h with ⟨-, rfl⟩ | ⟨i, -, ran⟩
  · exact ⟨congrArg State.status (completeWith_eq_failedState _ s), ⟨rfl, rfl, rfl, rfl, rfl⟩, rfl, rfl⟩
  · obtain ⟨status, -, environment, ie, cmd, -⟩ := completionFrame i s t ran
    exact ⟨status, environment, ie, cmd⟩

theorem overrun_of_completion {s t : State} (h : completion s = .next t) : t.status.overrun = s.status.overrun := by
  have overrun := congrArg Status.overrun (completion_frame h).1
  exact overrun

/-- Settles O9: the turn is a completion, which goes on with readable operands and sets STATUS. -/
theorem acceptedCommandCompletes : Obligations.AcceptedCommandCompletes := by
  intro s run busy turn ready
  obtain ⟨events, stepped⟩ := step_of_engineNext run busy turn
  obtain ⟨t, completed⟩ := goesOn_completion (s := { s with events }) ready
  obtain ⟨status, -, ie, cmd⟩ := completion_frame completed
  have err : t.status.err = decide (t.status.errcode ≠ 0#4) := congrArg Status.err status
  have overrun := overrun_of_completion completed
  exact ⟨t, stepped.trans completed, congrArg Status.busy status, congrArg Status.done status,
    by rw [err, decide_eq_true_iff], cmd, ie, overrun⟩

theorem shapeError_eq_none {i : Instr} (legal : i.wellFormed = true) (square : ∀ n m, i.dims = some (n, m) → n = m) :
    shapeError i = none := by
  cases dims : i.dims with
  | none => simp only [shapeError, dims]
  | some nm =>
    obtain ⟨n, m⟩ := nm
    obtain rfl := square n m dims
    exact shapeError_of_square dims (by simpa only [Instr.wellFormed, dims] using legal)

theorem withOperands_next_eq_fault_iff {rs : List Reg} {s t : State} {f : Fault} :
    withOperands rs s (.next t) = .fault f ↔ operandsReady rs s = false ∧ f = .unwrittenOperand := by
  cases ready : operandsReady rs s <;> simp [withOperands, ready, eq_comm]

theorem operandsReady_eq_false_iff {rs : List Reg} {s : State} :
    operandsReady rs s = false ↔ s.cfg.faultOnUnwritten = true ∧ ∃ r ∈ rs, r ∉ s.written := by
  simp [operandsReady]

/-- Settles O12: after the shape check, which raises an error and no fault, the operand check is the one fault. -/
theorem unwrittenOperandFaults : Obligations.UnwrittenOperandFaults := by
  refine ⟨fun i s legal square => ?fault, fun i s f stopped => ?only⟩
  case fault =>
    rw [exec_eq, withShape, shapeError_eq_none legal square, withOperands_next_eq_fault_iff,
      operandsReady_eq_false_iff, and_iff_left rfl]
  case only =>
    rw [exec_eq, withShape] at stopped
    split at stopped
    · cases stopped
    · exact (withOperands_next_eq_fault_iff.mp stopped).2

end Sys2Proof.Machine
end

section
/-! PROOFS. Reset: the invariant, and what the pin's low level leaves (70_reset_and_hazards.md R300, R301;
10_state.md R28). -/

namespace Sys2Proof.Machine

/-- Settles O27: the reset state is one that a reset leaves. -/
theorem resetKeepsInvariant : Obligations.ResetKeepsInvariant := by
  have registers : RegisterInv State.reset := .of_wasReset wasReset_reset
  exact ⟨rfl, registers.vout, registers.dinv, registers.nodup, registers.unwritten⟩

theorem setRstN_of_low {s : State} (low : s.rstN = false) (level : Bool) :
    setRstN level s = { blockReset s with rstN := level } := by
  simp [setRstN, low]

/-- Of the pin and the port, an event while RST_N is low changes only what its kind says. -/
theorem heldInReset_pins {s : State} (low : s.rstN = false) (e : Event) :
    (heldInReset e s).events = s.events ∧ (heldInReset e s).cfg = s.cfg ∧
      (∀ b, e = .bus b → b.pwrite = false → (heldInReset e s).prdata = 0#32) ∧
      ((heldInReset e s).rstN = true ↔ e = .rstN true) := by
  cases e with
  | bus b => cases write : b.pwrite <;> simp [heldInReset, write, low]
  | engine => simp [heldInReset, low]
  | rstN level => simp [heldInReset, setRstN_of_low low]

/-- Settles O24: with RST_N low the event is held in reset, whatever it is. -/
theorem heldInReset_of_low : Obligations.HeldInReset := by
  intro s e rest ok low next
  have low' : ({ s with events := rest } : State).rstN = false := low
  obtain ⟨events, cfg, prdata, pin⟩ := heldInReset_pins low' e
  exact ⟨_, (step_of_cons ok next).trans (handleEvent_of_low low' e), (wasReset_heldInReset low' e).1,
    events, cfg, prdata, pin⟩

end Sys2Proof.Machine
end

section
/-! PROOFS. The interrupt line, and a write of CMD before or after the completion (60_exceptions.md R269-R271). -/

namespace Sys2Proof.Machine

theorem irq_of_not_done {s : State} (waiting : s.status.done = false) : irq s = false := by
  rw [irq, waiting, Bool.and_false]

/-- Settles O25: a completion sets DONE; a STATUS write and an acceptance clear it; a CTRL write stores IE. -/
theorem interruptLine : Obligations.InterruptLine := by
  refine ⟨fun i s t ran => ?completion, fun s w rest run =>
    ⟨fun next selected => ?acknowledge, fun next enable => ?enable, fun next idle => ?accept⟩⟩
  case completion =>
    obtain ⟨status, -, -, ie, -⟩ := completionFrame i s t ran
    have done : t.status.done = true := congrArg Status.done status
    rw [irq, ie, done, Bool.and_true]
  case acknowledge => exact ⟨_, step_write run next, irq_of_not_done (if_pos selected)⟩
  case enable => exact ⟨_, (controlWriteSetsEnableOrResets s w rest run next).1 enable, rfl⟩
  case accept => exact ⟨_, commandWordAccepted s w rest run idle next, irq_of_not_done rfl⟩

/-- Settles O26: a completion leaves the block idle, so the write after it is accepted; before it the block is busy
and the write is dropped. -/
theorem completionAndWriteEitherOrder : Obligations.CompletionAndWriteEitherOrder := by
  refine fun s w rest run busy => ⟨fun t next stepped => ?completionFirst, fun next => ?writeFirst⟩
  case completionFirst =>
    have completed := (step_engine_of_cons run busy next).symm.trans stepped
    obtain ⟨-, ⟨rstN, -, -, -, events⟩, -, -⟩ := completion_frame completed
    have overrun := overrun_of_completion completed
    have run' : running t := ⟨statusOk_step stepped, rstN.trans run.2⟩
    exact ⟨_, commandWordAccepted t w rest run' (idle_of_completion completed) events,
      rfl, rfl, rfl, overrun, rfl⟩
  case writeFirst =>
    have dropped := writeCmd_of_busy w (s := { s with events := .engine :: rest }) busy
    exact ⟨_, (step_write run next).trans (congrArg Host.Outcome.next dropped), rfl, rfl, busy, rfl⟩

end Sys2Proof.Machine
end

section
/-! PROOFS. Writes while a command is in flight (70_reset_and_hazards.md R302, R321). -/

namespace Sys2Proof.Machine

theorem regOffset_of_regAt {off : Offset} {r : Reg} (named : regAt off = some r) : regOffset r = off :=
  registerMapIsBijective.2.1 off r named

theorem regWrite_of_busy {r : Reg} (dropped : r = .cmd ∨ isControl r = false) (w : Word) {s : State}
    (busy : s.status.busy = true) : regWrite r w s = dropWrite s := by
  rcases dropped with rfl | operand
  · exact writeCmd_of_busy w busy
  · exact regWrite_operand_of_busy operand w busy

/-- Settles O20: an offset that names a register reaches it, and a reserved one is R64's. -/
theorem writesWhileBusyAreDropped : Obligations.WritesWhileBusyAreDropped := by
  intro s off w rest run busy next
  have write (r : Reg) (named : regAt off = some r) : s.events = writeEvent r w :: rest := by
    rw [next, writeEvent, regOffset_of_regAt named]
  refine ⟨fun r named listed => ?dropped, fun aligned reserved lenient => ?reserved, fun named => ?id,
    fun named => ?status, fun named enable => ?enable, fun named srst => ?srst⟩
  case dropped =>
    have cmdOrOperand : r = .cmd ∨ isControl r = false :=
      listed.imp_right fun range => (isControl_eq_false_iff r).mpr (regOffsetNat_of_regAt named ▸ range.1)
    rw [step_write run (write r named), regWrite_of_busy cmdOrOperand w (s := { s with events := rest }) busy]
    rfl
  case reserved =>
    have ok := (accepted_iff ⟨off, true, w, 0b1111#4⟩).mpr ⟨aligned, fun _ => rfl⟩
    exact (reservedOffsetAccess s _ rest run next ok reserved).1 lenient rfl
  case id => exact step_write run (write .id named)
  case status => exact step_write run (write .status named)
  case enable => exact (controlWriteSetsEnableOrResets s w rest run (write .ctrl named)).1 enable
  case srst =>
    obtain ⟨t, stepped, reset, -, -, -, events, -⟩ :=
      (controlWriteSetsEnableOrResets s w rest run (write .ctrl named)).2 srst
    exact ⟨t, stepped, reset, events⟩

end Sys2Proof.Machine
end

section
/-! PROOFS. What ends OVERRUN, a command in flight and a result: each step is a reset, a completion, a host write or
none of them (70_reset_and_hazards.md R305, R325; 10_state.md R42). -/

namespace Sys2Proof.Machine

/-- A step handles the oldest pending event, or the engine's turn where none is pending. -/
theorem step_handles {s t : State} (h : step s = .next t) :
    ∃ e rest, ((e = .engine ∧ s.events = []) ∨ s.events = e :: rest) ∧
      handleEvent e { s with events := rest } = .next t := by
  obtain ⟨-, ⟨none, handled⟩ | ⟨e, rest, next, handled⟩⟩ := step_next h
  · exact ⟨.engine, s.events, .inl ⟨rfl, none⟩, handled⟩
  · exact ⟨e, rest, .inr next, handled⟩

theorem bus_eq_writeEvent {b : Transfer} {r : Reg} (ok : accepted b = true) (write : b.pwrite = true)
    (named : regAt b.paddr = some r) : Event.bus b = writeEvent r b.pwdata := by
  obtain ⟨-, lanes⟩ := (accepted_iff b).mp ok
  rw [writeEvent, regOffset_of_regAt named, ← lanes write, ← write]

theorem setRstN_true_of_high {s : State} (high : s.rstN = true) : setRstN true s = s := by
  simp [setRstN, high]

/-- What a step that goes on has handled: a reset, the completion of a command, a host write of a register, or an
event that changes no register (60_exceptions.md R271). -/
theorem step_cases {s t : State} (h : step s = .next t) :
    resetNext s ∨
    (engineNext s ∧ s.status.busy = true ∧ ∃ events, completion { s with events } = .next t) ∨
    (∃ r w rest, s.events = writeEvent r w :: rest ∧ t = regWrite r w { s with events := rest }) ∨
    ∃ events prdata drawCount, t = { s with events, prdata, drawCount } := by
  obtain ⟨e, rest, next, handled⟩ := step_handles h
  rcases handleEvent_next handled with
    ⟨low, -⟩ | ⟨-, b, rfl, answered⟩ | ⟨-, rfl, busy, completed⟩ | ⟨-, -, -, rfl⟩ | ⟨high, level, rfl, rfl⟩
  · exact .inl (.inl low)
  · have next := next.resolve_left nofun
    obtain ⟨ok, ⟨-, -, rfl⟩ | ⟨r, named, rfl⟩⟩ := busTransfer_next answered <;> cases write : b.pwrite
    · exact .inr (.inr (.inr ⟨rest, 0#32, s.drawCount, rfl⟩))
    · exact .inr (.inr (.inr ⟨rest, s.prdata, s.drawCount, rfl⟩))
    · exact .inr (.inr (.inr ⟨rest, _, _, rfl⟩))
    · exact .inr (.inr (.inl ⟨r, b.pwdata, rest, bus_eq_writeEvent ok write named ▸ next, rfl⟩))
  · exact .inr (.inl ⟨next.imp And.right fun next => ⟨rest, next⟩, busy, rest, completed⟩)
  · exact .inr (.inr (.inr ⟨rest, s.prdata, s.drawCount, rfl⟩))
  · have next := next.resolve_left nofun
    cases level with
    | false => exact .inl (.inr (.inl ⟨rest, next⟩))
    | true => exact .inr (.inr (.inr ⟨rest, s.prdata, s.drawCount, setRstN_true_of_high high⟩))

/-- What a host write of each register can do: `regWrite_cases` with the register it is for (20_memory.md R71). -/
theorem regWrite_by_register (r : Reg) (w : Word) (s : State) :
    (r = .ctrl ∧ w.getLsbD 1 = true) ∨
    (r = .status ∧ regWrite r w s = { s with status := statusWrite w s.status }) ∨
    (s.status.busy = false ∧ regWrite r w s = accept w s) ∨
    (hostWritable r = true ∧ regWrite r w s = markWritten [r] (storeField r w s)) ∨
    ∃ ie dropped, regWrite r w s = { s with ie, status.overrun := dropped || s.status.overrun } := by
  cases r with
  | id => exact .inr (.inr (.inr (.inr ⟨s.ie, false, rfl⟩)))
  | ctrl =>
    cases srst : w.getLsbD 1 with
    | true => exact .inl ⟨rfl, rfl⟩
    | false => exact .inr (.inr (.inr (.inr ⟨w.getLsbD 0, false, writeCtrl_of_not_srst srst s⟩)))
  | status => exact .inr (.inl ⟨rfl, rfl⟩)
  | cmd =>
    cases busy : s.status.busy with
    | true => exact .inr (.inr (.inr (.inr ⟨s.ie, true, writeCmd_of_busy w busy⟩)))
    | false => exact .inr (.inr (.inl ⟨rfl, writeCmd_of_idle w busy⟩))
  | _ =>
    rw [regWrite_of_not_control rfl]
    rcases writeOperand_cases _ w s with same | dropped | stored
    · exact .inr (.inr (.inr (.inr ⟨s.ie, false, same⟩)))
    · exact .inr (.inr (.inr (.inr ⟨s.ie, true, dropped⟩)))
    · exact .inr (.inr (.inr (.inl stored)))

section HostWrite
variable (r : Reg) (w : Word) {s : State}

/-- A host write can end a command in flight by a soft reset only. -/
theorem srst_or_busy_regWrite (busy : s.status.busy = true) :
    (r = .ctrl ∧ w.getLsbD 1 = true) ∨ (regWrite r w s).status.busy = true := by
  rcases regWrite_by_register r w s with srst | ⟨-, eq⟩ | ⟨-, eq⟩ | ⟨-, eq⟩ | ⟨ie, dropped, eq⟩
  case inl => exact .inl srst
  all_goals refine .inr ?_; rw [eq]
  · exact busy
  · rfl
  · rw [markWritten_status, storeField_status, busy]
  · exact busy

/-- A host write can clear OVERRUN by a soft reset or a STATUS write of bit 8 only. -/
theorem srst_or_clear_or_overrun_regWrite (overrun : s.status.overrun = true) :
    (r = .ctrl ∧ w.getLsbD 1 = true) ∨ (r = .status ∧ w.getLsbD 8 = true) ∨
      (regWrite r w s).status.overrun = true := by
  rcases regWrite_by_register r w s with srst | ⟨status, eq⟩ | ⟨-, eq⟩ | ⟨-, eq⟩ | ⟨ie, dropped, eq⟩
  case inl => exact .inl srst
  all_goals refine .inr ?_; rw [eq]
  · cases selected : w.getLsbD 8 with
    | true => exact .inl ⟨status, rfl⟩
    | false => exact .inr (by simp only [statusWrite_eq, overrun, selected, Bool.not_false, Bool.and_self])
  · exact .inr overrun
  · exact .inr (by rw [markWritten_status, storeField_status, overrun])
  · exact .inr (by rw [overrun, Bool.or_true])

/-- A host write can change a read-only result by a soft reset only (10_state.md R42). -/
theorem srst_or_readReg_regWrite {q : Reg} (operand : isControl q = false) (readOnly : hostWritable q = false) :
    (r = .ctrl ∧ w.getLsbD 1 = true) ∨ readReg q (regWrite r w s) = readReg q s := by
  rcases regWrite_by_register r w s with srst | ⟨-, eq⟩ | ⟨-, eq⟩ | ⟨writable, eq⟩ | ⟨ie, dropped, eq⟩
  case inl => exact .inl srst
  case inr.inr.inr.inl =>
    have apart : q ≠ r := by
      rintro rfl
      simp [readOnly] at writable
    exact .inr (by rw [eq, readReg_markWritten, readReg_storeField apart])
  all_goals exact .inr (eq ▸ (registersKept_of_control _ _ _ _ _ _).2 q operand)

end HostWrite

theorem resetNext_of_srst {s : State} {r : Reg} {w : Word} {rest : List Event}
    (next : s.events = writeEvent r w :: rest) (srst : r = .ctrl ∧ w.getLsbD 1 = true) : resetNext s := by
  obtain ⟨rfl, selected⟩ := srst
  exact .inr (.inr ⟨w, rest, next, selected⟩)

/-- Settles O31: a completion keeps OVERRUN and sets DONE, and of the host writes only two end one of the flags. -/
theorem overrunAndBusyEndOnlyAsStated : Obligations.OverrunAndBusyEndOnlyAsStated := by
  intro s t h
  rcases step_cases h with
    reset | ⟨turn, -, events, completed⟩ | ⟨r, w, rest, next, rfl⟩ | ⟨events, prdata, drawCount, rfl⟩
  · exact ⟨fun _ _ => .inl reset, fun _ _ => .inl reset⟩
  · have kept := overrun_of_completion completed
    have done := congrArg Status.done (completion_frame completed).1
    exact ⟨fun set cleared => by simp [kept, set] at cleared, fun _ _ => .inr ⟨turn, done⟩⟩
  · refine ⟨fun set cleared => ?overrun, fun busy idle => ?busy⟩
    case overrun =>
      rcases srst_or_clear_or_overrun_regWrite r w (s := { s with events := rest }) set with
        srst | ⟨rfl, selected⟩ | kept
      · exact .inl (resetNext_of_srst next srst)
      · exact .inr ⟨w, rest, next, selected⟩
      · simp [kept] at cleared
    case busy =>
      have still := srst_or_busy_regWrite r w (s := { s with events := rest }) busy
      exact .inl (resetNext_of_srst next (still.resolve_right (by simp [idle])))
  · exact ⟨fun set cleared => by simp [set] at cleared, fun busy idle => by simp [busy] at idle⟩

/-- A completion changes a register from 0x040 on by a success that has it in its row of 10_state.md R44 only. -/
theorem result_of_completion {s t : State} {r : Reg} (operand : isControl r = false)
    (completed : completion s = .next t) (changed : readReg r t ≠ readReg r s) :
    t.status.errcode = 0#4 ∧ ∃ i, decode s.cmd = .ok i ∧ r ∈ resultRegs i := by
  have notStatus : r ≠ .status := by rintro rfl; contradiction
  rcases completion_next completed with ⟨-, rfl⟩ | ⟨i, command, ran⟩
  · exact absurd (readReg_completeWith notStatus _ s) changed
  · obtain ⟨-, -, -, -, -, frame, failed⟩ := completionFrame i s t ran
    refine ⟨?code, i, command, ?row⟩
    case code =>
      by_contra code
      exact changed (failed code ▸ (registersKept_of_control _ _ _ _ _ _).2 r operand)
    case row =>
      by_contra outside
      exact changed (frame r outside notStatus)

/-- Settles O33: a completion writes its row, and a host write stores no read-only register. -/
theorem resultLifetime : Obligations.ResultLifetime := by
  intro s t r h operand readOnly changed
  rcases step_cases h with
    reset | ⟨turn, busy, events, completed⟩ | ⟨q, w, rest, next, rfl⟩ | ⟨events, prdata, drawCount, rfl⟩
  · exact .inl reset
  · rw [← readReg_events r s events] at changed
    have result := result_of_completion operand completed changed
    exact .inr ⟨turn, busy, result⟩
  · rw [← readReg_events r s rest] at changed
    exact .inl (resetNext_of_srst next
      ((srst_or_readReg_regWrite q w operand readOnly).resolve_right changed))
  · exact absurd ((registersKept_of_control _ _ _ _ _ _).2 r operand) changed

end Sys2Proof.Machine
end
